-- ==== Sys2Proof/Word.lean ====
section
/-! DEFINITION. The word types of the block: 8-bit bytes (R7), the 16-bit and 32-bit fields of the frames (R51, R52). -/

namespace Sys2Proof

/-- A byte, 8 bits, unsigned (R7). -/
abbrev Byte := BitVec 8

/-- A 16-bit field: device id, response parameter, reserved, status, opcode, checksum, frame length (R51, R52, R63). -/
abbrev Half := BitVec 16

/-- A 32-bit field: the command parameter (R51). -/
abbrev Long := BitVec 32

end Sys2Proof
end

