-- ==== Sys2Proof/Config.lean ====
section
/-! DEFINITION. What an implementation of the block fixes (the open parameters of R5) and the one free value,
the transport's answer to a write nobody has given an answer for (R36, D13, U14). -/

namespace Sys2Proof

/-- The open parameters of R5 that a rule reads; the default values are the ones R5 takes.
They are configuration (R20): no transition of the block writes them. -/
structure Config where
  /-- `BUF_CAP`, the capacity of the receive buffer in bytes; `none`: unbounded (D14). -/
  bufCap : Option Nat := none
  /-- `LEN_MAX`, the greatest legal expected Data frame length (D5). -/
  lenMax : Nat := 65535
  /-- `KEEP_LEN_AFTER_DATA`, whether the expectation survives a valid Data frame (D6). -/
  keepLenAfterData : Bool := false
  /-- `T_CMD`, the command time bound in milliseconds; `none`: no command time-out exists (D16). -/
  tCmd : Option Nat := none
deriving DecidableEq, Repr

/-- The parameters are usable: the greatest legal frame holds the fixed fields of a Data frame (R5, R108). -/
def Config.wf (c : Config) : Bool := decide (6 ≤ c.lenMax)

/-- `T_DATA`, the receive time bound in milliseconds (R4): documentation only, no rule of the model reads it (R180). -/
def Config.tDataMs : Nat := 5000

/-- The transport's answer to one write (R36). -/
inductive TxResult where
  | ok
  | fail
deriving DecidableEq, Repr, Inhabited

/-- DESIGN CHOICE (log entry 3), safe: FREE VALUE. The transport's answer to write number `k` of a run when the state
holds no given answer for it: "an input the block does not control" (R36). It has no body, so a claim proved of it
holds for every answer. -/
opaque Config.txOutcome : Nat → TxResult

end Sys2Proof
end

