-- ==== Sys2Proof/Syntax.lean ====
section
/-! DEFINITION. The operations of the block, one constructor per row of spec/opcode_table.json, the packet records of
R81, and the raw forms in which a port or a wire presents an operation. -/

namespace Sys2Proof

/-- One row of spec/opcode_table.json each. The rows of formats `CMD12`, `RSP12` and `DATn` are wire frames, the `REQ`
and `EVENT` rows are what the ports accept, the `INTERNAL` rows are steps of a transition that no port selects (R65). -/
inductive Instr where
  /-- `CMD`: a Command frame leaves the block (R51, R91). -/
  | cmd (opcode : Half) (param : Long)
  /-- `RSP.ACK`: a Response candidate with a right checksum and status `0x0030` (R52, R94). -/
  | rspAck (devId param reserved : Half)
  /-- `RSP.NACK`: a Response candidate with a right checksum and status `0x0031` (R52, R95). -/
  | rspNack (devId param reserved : Half)
  /-- `RSP.OTHER`: a Response candidate with a right checksum and any other status (R52, R96). -/
  | rspOther (devId param reserved status : Half)
  /-- `RSP.BADSUM`: a Response candidate whose checksum fails (R76). -/
  | rspBadsum (devId param reserved status checksum : Half)
  /-- `DAT`: a Data candidate of `payload.length + 6` bytes with the checksum it carries, right or wrong (R53, R68, R110). -/
  | dat (devId : Half) (payload : List Byte) (checksum : Half)
  /-- `SEND_CMD`, request select `01` (R90). -/
  | sendCmd (opcode : Half) (param : Long)
  /-- `SEND_DATA`, request select `10` (R105). -/
  | sendData (payload : List Byte)
  /-- `RECV_DATA`, request select `11`; `n` is the whole frame length (R107). -/
  | recvData (n : Half)
  /-- `REQ.RESERVED`, request select `00` (R64). -/
  | reqReserved
  /-- `FEED`, the RX port's event (R70). -/
  | feed (chunk : List Byte)
  /-- `DATA_TIMEOUT`, the TMR port's event (R111). -/
  | dataTimeout
  /-- `CMD_TIMEOUT`, the TMR port's event that exists only when `T_CMD` is set (R98). -/
  | cmdTimeout
  /-- `RESET`, the RST port's event (R160). -/
  | reset
  /-- `EXTRACT`, the extraction procedure (R71). -/
  | extract
  /-- `EXPECT(n)`, sets the expected length (R79). -/
  | expect (n : Half)
  /-- `UNEXPECT`, clears the expected length (R80). -/
  | unexpect
  /-- `TxWrite(frame)`, hands one whole frame to the transport (R36). -/
  | txWrite (frame : List Byte)
deriving DecidableEq, Repr

/-- The typed record of a valid Response frame (R81). -/
structure ResponsePacket where
  devId : Half
  param : Half
  reserved : Half
  status : Half
  checksum : Half
deriving DecidableEq, Repr

/-- The typed record of a valid Data frame (R81). -/
structure DataPacket where
  devId : Half
  payload : List Byte
  checksum : Half
deriving DecidableEq, Repr

/-- The kind a known header gives the head of the buffer (R56). -/
inductive FrameKind where
  | response
  | data
deriving DecidableEq, Repr

/-- A request as it stands on the REQ port: a 2-bit select and the operands (R63). The operands the selected operation
does not have are not read. -/
structure Request where
  op : BitVec 2
  opcode : Half := 0
  param : Long := 0
  payload : List Byte := []
  n : Half := 0
deriving DecidableEq, Repr

/-- What the agents can present at the block's input ports (R6, R65): one event of one port. -/
inductive Input where
  /-- RX: a chunk of bytes. -/
  | rx (chunk : List Byte)
  /-- REQ: a request. -/
  | req (r : Request)
  /-- TMR: the receive timer expired. -/
  | tmrData
  /-- TMR: the command timer expired. -/
  | tmrCmd
  /-- RST: reset. -/
  | rst
deriving DecidableEq, Repr

/-- Where an operation's encoding stands: an input port, the head of the receive buffer (a candidate frame, sensor to
block), or the TX stream (a whole frame, block to sensor) (R50, R63, R65). -/
inductive Wire where
  | input (p : Input)
  | rxFrame (f : List Byte)
  | txFrame (f : List Byte)
deriving DecidableEq, Repr

end Sys2Proof
end

