-- ==== Sys2Proof/Machine/Operands.lean ====
section
/-! DEFINITION. The constants of R4, the byte order of R7 and R54, the additive checksum of R55 and the fields of each
frame: every operand form the frames have. -/

namespace Sys2Proof.Machine

/-- First start code byte of a Command or Response frame (R4). -/
def hdrRsp0 : Byte := 0x55

/-- Second start code byte of a Command or Response frame (R4). -/
def hdrRsp1 : Byte := 0xAA

/-- First start code byte of a Data frame (R4). -/
def hdrDat0 : Byte := 0x5A

/-- Second start code byte of a Data frame (R4). -/
def hdrDat1 : Byte := 0xA5

/-- Length of a Command or Response frame (R4). -/
def rspLen : Nat := 12

/-- Bytes of a Data frame beside its payload (R4). -/
def datOvh : Nat := 6

/-- Least legal expected Data frame length, `LEN_MIN` (R5). -/
def lenMin : Nat := 6

/-- The device id the block sends (R4, R61). -/
def devIdWord : Half := 0x0001

/-- Status word of success (R4). -/
def ackWord : Half := 0x0030

/-- Status word of a device-reported failure (R4). -/
def nackWord : Half := 0x0031

/-- `f[i]`; offsets past the end read as zero, but no rule reads one (R31). -/
def byteAt (f : List Byte) (i : Nat) : Byte := f.getD i 0

/-- `f[a:b]` (R7). -/
def slice (f : List Byte) (a b : Nat) : List Byte := (f.take b).drop a

/-- `le16(f, i) = f[i] + 256*f[i+1]` (R7). -/
def le16 (f : List Byte) (i : Nat) : Half :=
  BitVec.ofNat 16 ((byteAt f i).toNat + 256 * (byteAt f (i + 1)).toNat)

/-- `le32(f, i)`, four bytes, the lower offset less significant (R7). -/
def le32 (f : List Byte) (i : Nat) : Long :=
  BitVec.ofNat 32 ((byteAt f i).toNat + 256 * (byteAt f (i + 1)).toNat
    + 65536 * (byteAt f (i + 2)).toNat + 16777216 * (byteAt f (i + 3)).toNat)

/-- `b16(v)`, the two bytes of a 16-bit value, low byte first (R7). -/
def b16 (v : Half) : List Byte :=
  [BitVec.ofNat 8 v.toNat, BitVec.ofNat 8 (v.toNat / 256)]

/-- `b32(v)`, the four bytes of a 32-bit value, low byte first (R7). -/
def b32 (v : Long) : List Byte :=
  [BitVec.ofNat 8 v.toNat, BitVec.ofNat 8 (v.toNat / 256), BitVec.ofNat 8 (v.toNat / 65536),
    BitVec.ofNat 8 (v.toNat / 16777216)]

/-- The exact sum of a byte sequence, each byte a value 0 to 255 (R55). -/
def byteSum : List Byte → Nat
  | [] => 0
  | b :: rest => b.toNat + byteSum rest

/-- `sum16(s)`, the byte sum modulo 65536 (R8, R84). -/
def sum16 (s : List Byte) : Half := BitVec.ofNat 16 (byteSum s)

/-- The checksum a frame should carry: the sum of all its bytes but the last two (R55). -/
def checksumOf (f : List Byte) : Half := sum16 (f.take (f.length - 2))

/-- The checksum a frame does carry: its last two bytes, little-endian (R54, R75). -/
def storedChecksum (f : List Byte) : Half := le16 f (f.length - 2)

/-- The validity test of R75. -/
def checksumOk (f : List Byte) : Bool := decide (checksumOf f = storedChecksum f)

/-- A frame body with its checksum behind it (R55). -/
def withChecksum (h : List Byte) : List Byte := h ++ b16 (sum16 h)

/-- The first ten bytes of a Command frame (R51). -/
def cmdBody (opcode : Half) (param : Long) : List Byte :=
  [hdrRsp0, hdrRsp1] ++ b16 devIdWord ++ b32 param ++ b16 opcode

/-- The first ten bytes of a Response frame (R52). -/
def rspBody (devId param reserved status : Half) : List Byte :=
  [hdrRsp0, hdrRsp1] ++ b16 devId ++ b16 param ++ b16 reserved ++ b16 status

/-- A Data frame without its checksum (R53). -/
def datBody (devId : Half) (payload : List Byte) : List Byte :=
  [hdrDat0, hdrDat1] ++ b16 devId ++ payload

/-- `enc_cmd(opcode, param)` (R91). -/
def encCmd (opcode : Half) (param : Long) : List Byte := withChecksum (cmdBody opcode param)

/-- `enc_dat(payload)` (R106). -/
def encDat (payload : List Byte) : List Byte := withChecksum (datBody devIdWord payload)

/-- The kind of the two leading bytes, compared byte by byte in wire order (R32, R56). -/
def headerKind (f : List Byte) : Option FrameKind :=
  if f.length < 2 then none
  else if byteAt f 0 = hdrRsp0 ∧ byteAt f 1 = hdrRsp1 then some .response
  else if byteAt f 0 = hdrDat0 ∧ byteAt f 1 = hdrDat1 then some .data
  else none

/-- The record of a Response candidate (R77, R81). -/
def responsePacket (f : List Byte) : ResponsePacket :=
  ⟨le16 f 2, le16 f 4, le16 f 6, le16 f 8, le16 f 10⟩

/-- The record of a Data candidate (R78, R81). -/
def dataPacket (f : List Byte) : DataPacket :=
  ⟨le16 f 2, slice f 4 (f.length - 2), storedChecksum f⟩

/-- A whole frame the block may hand to the transport: a Command or a Data frame with the fixed device id and a right
checksum (R36, R51, R53, R61). -/
def isTxFrame (f : List Byte) : Bool :=
  (match headerKind f with
    | some .response => decide (f.length = rspLen)
    | some .data => decide (datOvh ≤ f.length)
    | none => false)
  && decide (le16 f 2 = devIdWord) && checksumOk f

end Sys2Proof.Machine
end

