-- ==== Sys2Proof/WellFormed.lean ====
section
/-! DEFINITION. Which terms of `Instr` are instructions: the operand conditions the rows' constraints give. -/

namespace Sys2Proof

open Sys2Proof.Machine

/-- The constraint column of spec/opcode_table.json on the operands alone. A request's operand range is judged when the
request is served (R105, R108), so every request is well-formed. -/
def Instr.wf : Instr → Bool
  | .cmd _ _ => true
  | .rspAck _ _ _ => true
  | .rspNack _ _ _ => true
  | .rspOther _ _ _ status => decide (status ≠ ackWord ∧ status ≠ nackWord)
  | .rspBadsum d p r st c => decide (c ≠ sum16 (rspBody d p r st))
  | .dat _ _ _ => true
  | .sendCmd _ _ => true
  | .sendData _ => true
  | .recvData _ => true
  | .reqReserved => true
  | .feed _ => true
  | .dataTimeout => true
  | .cmdTimeout => true
  | .reset => true
  | .extract => true
  | .expect n => decide (lenMin ≤ n.toNat)
  | .unexpect => true
  | .txWrite f => isTxFrame f

end Sys2Proof
end

