-- ==== Sys2Proof/Decode.lean ====
section
/-! DEFINITION. The decoder, total on every port input and on any bytes, rejecting by name (R56, R58, R63, R65, R68),
and after it the encoder. -/

namespace Sys2Proof

open Sys2Proof.Machine

/-- Why bytes are no frame of the direction asked about. None of these is an error of the block: on receive the framer
waits (R145). -/
inductive DecodeError where
  /-- Fewer than two bytes. -/
  | tooShort
  /-- The leading two bytes are no known header (R60). -/
  | unknownHeader
  /-- The header is known and the length is not one its frame has. -/
  | wrongLength
  /-- A frame of the TX stream carries a wrong checksum: the block writes none. -/
  | badChecksum
  /-- A frame of the TX stream carries a device id the block never writes (R61). -/
  | foreignDevId
deriving DecidableEq, Repr

/-- A Response candidate of 12 bytes: the rows `RSP.ACK`, `RSP.NACK`, `RSP.OTHER` in that order, `RSP.BADSUM` when the
checksum fails (R58, R68). -/
def decodeRsp (f : List Byte) : Instr :=
  let p := responsePacket f
  if checksumOk f then
    if p.status = ackWord then .rspAck p.devId p.param p.reserved
    else if p.status = nackWord then .rspNack p.devId p.param p.reserved
    else .rspOther p.devId p.param p.reserved p.status
  else .rspBadsum p.devId p.param p.reserved p.status p.checksum

/-- A Data candidate (R53). -/
def decodeDat (f : List Byte) : Instr :=
  let p := dataPacket f
  .dat p.devId p.payload p.checksum

/-- A frame received by the block (R56). A Command frame cannot be told from a Response here (R62). A Data
frame has any payload, R53 gives `N` no upper bound. -/
def decodeRx (f : List Byte) : Except DecodeError Instr :=
  if f.length < 2 then .error .tooShort
  else match headerKind f with
    | none => .error .unknownHeader
    | some .response => if f.length = rspLen then .ok (decodeRsp f) else .error .wrongLength
    | some .data => if datOvh ≤ f.length then .ok (decodeDat f) else .error .wrongLength

/-- A frame written by the block (R51, R53). -/
def decodeTx (f : List Byte) : Except DecodeError Instr :=
  if f.length < 2 then .error .tooShort
  else match headerKind f with
    | none => .error .unknownHeader
    | some .response =>
      if f.length ≠ rspLen then .error .wrongLength
      else if le16 f 2 ≠ devIdWord then .error .foreignDevId
      else if checksumOk f then .ok (.cmd (le16 f 8) (le32 f 4)) else .error .badChecksum
    | some .data =>
      if f.length < datOvh then .error .wrongLength
      else if le16 f 2 ≠ devIdWord then .error .foreignDevId
      else if checksumOk f then .ok (decodeDat f) else .error .badChecksum

/-- A request by its 2-bit select (R63, R64). -/
def decodeRequest (r : Request) : Instr :=
  if r.op = 1 then .sendCmd r.opcode r.param
  else if r.op = 2 then .sendData r.payload
  else if r.op = 3 then .recvData r.n
  else .reqReserved

/-- An event of an input port: the port alone says which, but on REQ (R65). -/
def decodeInput : Input → Instr
  | .rx chunk => .feed chunk
  | .req r => decodeRequest r
  | .tmrData => .dataTimeout
  | .tmrCmd => .cmdTimeout
  | .rst => .reset

/-- The decoder. -/
def decode : Wire → Except DecodeError Instr
  | .input p => .ok (decodeInput p)
  | .rxFrame f => decodeRx f
  | .txFrame f => decodeTx f

/-- The encoder, from the layouts of R51 to R53 and the select codes of R63; `none` for the internal operations, which
no port selects (R65). -/
def encode : Instr → Option Wire
  | .cmd opcode param => some (.txFrame (encCmd opcode param))
  | .rspAck d p r => some (.rxFrame (withChecksum (rspBody d p r ackWord)))
  | .rspNack d p r => some (.rxFrame (withChecksum (rspBody d p r nackWord)))
  | .rspOther d p r st => some (.rxFrame (withChecksum (rspBody d p r st)))
  | .rspBadsum d p r st c => some (.rxFrame (rspBody d p r st ++ b16 c))
  | .dat d payload c => some (.rxFrame (datBody d payload ++ b16 c))
  | .sendCmd opcode param => some (.input (.req ⟨1, opcode, param, [], 0⟩))
  | .sendData payload => some (.input (.req ⟨2, 0, 0, payload, 0⟩))
  | .recvData n => some (.input (.req ⟨3, 0, 0, [], n⟩))
  | .reqReserved => some (.input (.req ⟨0, 0, 0, [], 0⟩))
  | .feed chunk => some (.input (.rx chunk))
  | .dataTimeout => some (.input .tmrData)
  | .cmdTimeout => some (.input .tmrCmd)
  | .reset => some (.input .rst)
  | .extract => none
  | .expect _ => none
  | .unexpect => none
  | .txWrite _ => none

/-- The `count` lowest bytes of a number, the least significant first. -/
def bytesOf : Nat → Nat → List Byte
  | 0, _ => []
  | count + 1, w => BitVec.ofNat 8 w :: bytesOf count (w / 256)

/-- DESIGN CHOICE (log entry 6). The bytes of a table word longer than a request select: its bytes in wire order, then
zeros up to the shortest frame its header has. -/
def tableFrame (nbits w : Nat) : List Byte :=
  let f := bytesOf ((nbits + 7) / 8) w
  match headerKind f with
  | some .data => f ++ List.replicate (datOvh - f.length) 0
  | _ => f ++ List.replicate (rspLen - f.length) 0

/-- DESIGN CHOICE (log entry 6). A table word as a port presents it: a word of fewer than 16 bits is a request whose
low two bits are its select and whose operands are zeros, a longer one a frame on RX. -/
def tableInput (nbits w : Nat) : Input :=
  if nbits < 16 then .req ⟨BitVec.ofNat 2 w, 0, 0, [], 0⟩ else .rx (tableFrame nbits w)

/-- The instruction the decoder reads from a word of the opcode table. -/
def decodeTableWord (nbits w : Nat) : Option Instr :=
  if nbits < 16 then some (decodeInput (tableInput nbits w))
  else (decodeRx (tableFrame nbits w)).toOption

end Sys2Proof
end

