-- ==== Sys2Proof/Machine/State.lean ====
section
/-! DEFINITION. The state: the five components of R10, and around them the parameters, the inputs due and the two
output logs. Plain data throughout. -/

namespace Sys2Proof.Machine

/-- The kinds of fault of the block (R152), the values of its fault latch. -/
inductive Fault where
  /-- Raised by `FEED` when the chunk would make the buffer longer than `BUF_CAP` (R85). It is latched in `State.fault`
  and the step answers a next state, since `RESET` leads out of it (R152). Safe: the block then serves nothing else. -/
  | bufferOverflow
deriving DecidableEq, Repr

/-- Why an operation has no transition. -/
inductive Refusal where
  /-- Answered by an arm of `exec` whose instruction has no meaning yet. Safe: nothing can be proved of a next state. -/
  | notModelled (mnemonic : String)
  /-- Answered by `DATA_TIMEOUT` and `CMD_TIMEOUT` where the event is not enabled: "a model gives it no transition in
  that state" (R98, R111, R147). Safe: the event cannot occur there; `step` drops such an event and never meets this. -/
  | notEnabled
deriving DecidableEq, Repr

/-- The expected total length of the next Data frame (R10, R14). -/
inductive ExpLen where
  | unknown
  | known (n : Nat)
deriving DecidableEq, Repr

/-- A single-entry slot (R15, R16). -/
inductive Slot where
  | empty
  | pending
deriving DecidableEq, Repr

/-- A completion on the CPL port (R141). -/
inductive Completion where
  | cmdOk (param : Half)
  | cmdNack (reason : Half)
  | cmdBadStatus (status param : Half)
  | cmdTxErr
  | cmdReuse
  | cmdTimeout
  | datOk (payload : List Byte)
  | datTimeout
  | datReuse
  | datInvalid
  | sndOk
  | sndTxErr
  | sndInvalid
  | illegalOp
deriving DecidableEq, Repr

/-- One write of the TX stream and the transport's answer to it (R19, R36). -/
structure TxEntry where
  frame : List Byte
  outcome : TxResult
deriving DecidableEq, Repr

/-- The machine. -/
structure State where
  /-- The receive buffer, offset 0 the oldest byte (R13). -/
  buf : List Byte
  /-- The expected Data frame length (R14). -/
  expLen : ExpLen
  /-- The command slot (R15). -/
  rspSlot : Slot
  /-- The data slot (R16); the receive timer is armed exactly while it is pending (R112). -/
  datSlot : Slot
  /-- The fault latch (R18). -/
  fault : Option Fault
  /-- The parameters of R5, written by no transition (log entry 1). -/
  cfg : Config
  /-- INPUT, the model's own field: the port events due, in the order they are served (R40, R45; log entry 2). -/
  inbox : List Input
  /-- INPUT, the model's own field: the transport's answers to the writes to come (R36; log entry 3). -/
  txAnswers : List TxResult
  /-- The model's own field: how many writes were made, the argument of the free answer (log entry 3). -/
  txCount : Nat
  /-- OUTPUT: the writes made, oldest first (R19; log entry 4). -/
  txLog : List TxEntry
  /-- OUTPUT: the completions delivered, oldest first (R19; log entry 4). -/
  cplLog : List Completion
deriving DecidableEq, Repr

/-- The machine right after reset, at the start of an observation (R24). -/
def State.reset : State where
  buf := []
  expLen := .unknown
  rspSlot := .empty
  datSlot := .empty
  fault := none
  cfg := {}
  inbox := []
  txAnswers := []
  txCount := 0
  txLog := []
  cplLog := []

end Sys2Proof.Machine
end

