-- ==== Sys2Proof/Machine/Flags.lean ====
section
/-! DEFINITION. The status flags (R17), the timers they stand for (R98, R112), the range and capacity tests, and the
tables of completions (R141, R142). -/

namespace Sys2Proof.Machine

/-- `exp_len ≠ unknown` (R17). -/
def expKnown (s : State) : Bool := decide (s.expLen ≠ .unknown)

/-- `rsp_slot = PENDING` (R17). -/
def rspPending (s : State) : Bool := decide (s.rspSlot = .pending)

/-- `dat_slot = PENDING` (R17). -/
def datPending (s : State) : Bool := decide (s.datSlot = .pending)

/-- `fault ≠ none` (R17, R18). -/
def faulted (s : State) : Bool := s.fault.isSome

/-- The receive timer is armed exactly while `dat_slot = PENDING` (R112); this enables `DATA_TIMEOUT` (R111). -/
def dataTimerArmed (s : State) : Bool := datPending s

/-- The command timer is armed exactly while `rsp_slot = PENDING`, and exists only if `T_CMD` is set (R98); this
enables `CMD_TIMEOUT`. -/
def cmdTimerArmed (s : State) : Bool := s.cfg.tCmd.isSome && rspPending s

/-- `LEN_MIN ≤ n ≤ LEN_MAX` (R108). -/
def lengthInRange (n : Half) (s : State) : Bool :=
  decide (lenMin ≤ n.toNat) && decide (n.toNat ≤ s.cfg.lenMax)

/-- `len(payload) > LEN_MAX - 6`, the length test of `SEND_DATA` (R105). -/
def payloadTooLong (payload : List Byte) (s : State) : Bool :=
  decide (s.cfg.lenMax - datOvh < payload.length)

/-- `BUF_CAP = some c and len(buf) + len(chunk) > c` (R70, R85). -/
def overflows (chunk : List Byte) (s : State) : Bool :=
  match s.cfg.bufCap with
  | none => false
  | some c => decide (c < s.buf.length + chunk.length)

/-- The completion codes of R141. -/
def completionCode : Completion → Nat
  | .cmdOk _ => 0
  | .cmdNack _ => 1
  | .cmdBadStatus _ _ => 2
  | .cmdTxErr => 3
  | .cmdReuse => 4
  | .cmdTimeout => 5
  | .datOk _ => 6
  | .datTimeout => 7
  | .datReuse => 8
  | .datInvalid => 9
  | .sndOk => 10
  | .sndTxErr => 11
  | .sndInvalid => 12
  | .illegalOp => 13

/-- The kinds of R142's taxonomy that reach the host; a checksum mismatch never does (R144). -/
inductive CompletionKind where
  | success
  | timeout
  | protocolError
  | validationError
  | transportError
  | reuseError
  | illegalOperation
deriving DecidableEq, Repr

/-- The source kind of each completion (R141, R142). -/
def completionKind : Completion → CompletionKind
  | .cmdOk _ => .success
  | .cmdNack _ => .protocolError
  | .cmdBadStatus _ _ => .protocolError
  | .cmdTxErr => .transportError
  | .cmdReuse => .reuseError
  | .cmdTimeout => .timeout
  | .datOk _ => .success
  | .datTimeout => .timeout
  | .datReuse => .reuseError
  | .datInvalid => .validationError
  | .sndOk => .success
  | .sndTxErr => .transportError
  | .sndInvalid => .validationError
  | .illegalOp => .illegalOperation

/-- The completion of a Response: what settles a pending command from the wire (R94 to R96). -/
def isResponseCompletion : Completion → Bool
  | .cmdOk _ => true
  | .cmdNack _ => true
  | .cmdBadStatus _ _ => true
  | _ => false

/-- The completion of a Data frame: what settles a pending receive from the wire (R110). -/
def isDataCompletion : Completion → Bool
  | .datOk _ => true
  | _ => false

end Sys2Proof.Machine
end

