-- ==== Sys2Proof/Machine/Ops.lean ====
section
/-! DEFINITION. The named operations over the buffer, the slots, the expected length, the ports and the fault latch:
the pseudocode primitives of R8 and the steps of the extraction rule (R71 to R83). -/

namespace Sys2Proof.Machine

/-- `MemAppend(c)` (R8). -/
def memAppend (c : List Byte) (s : State) : State := { s with buf := s.buf ++ c }

/-- `MemRead(a, n)`: `buf[a : a+n]` (R8). -/
def memRead (a n : Nat) (s : State) : List Byte := (s.buf.drop a).take n

/-- `MemDrop(n)` (R8). -/
def memDrop (n : Nat) (s : State) : State := { s with buf := s.buf.drop n }

/-- `MemClear()` (R8). -/
def memClear (s : State) : State := { s with buf := [] }

/-- `exp_len <- known(n)`, the body of `EXPECT` (R79). -/
def expectLen (n : Nat) (s : State) : State := { s with expLen := .known n }

/-- `exp_len <- unknown`, the body of `UNEXPECT` (R80). -/
def unexpectLen (s : State) : State := { s with expLen := .unknown }

/-- `rsp_slot <- v`; the command timer follows the slot (R98). -/
def setRspSlot (v : Slot) (s : State) : State := { s with rspSlot := v }

/-- `dat_slot <- v`; the receive timer follows the slot (R112). -/
def setDatSlot (v : Slot) (s : State) : State := { s with datSlot := v }

/-- `complete K(info)`: appends a completion to the CPL port's output (R8, R140). -/
def complete (c : Completion) (s : State) : State := { s with cplLog := s.cplLog ++ [c] }

/-- The transport's answer to the next write: the given one if the state holds one, else free (R36, D13; log entry 3). -/
def txAnswer (s : State) : TxResult :=
  match s.txAnswers with
  | a :: _ => a
  | [] => Config.txOutcome s.txCount

/-- The state after `TxWrite(f)`: one whole frame handed over, its answer drawn and logged (R19, R36). -/
def txWrite (f : List Byte) (s : State) : State :=
  { s with
    txAnswers := s.txAnswers.tail
    txCount := s.txCount + 1
    txLog := s.txLog ++ [⟨f, txAnswer s⟩] }

/-- `raise Fault(k)`, the block's one exception: it saves nothing and names no handler, it sets the latch (R150, R152).
The return from it is `RESET` alone. -/
def raiseFault (k : Fault) (s : State) : State := { s with fault := some k }

/-- `RESET`: the five components at the values of R24, the timers cancelled with the slots; parameters, inputs and logs
are not the block's state and stay (R160, R161). -/
def resetBlock (s : State) : State :=
  { s with buf := [], expLen := .unknown, rspSlot := .empty, datSlot := .empty, fault := none }

/-- A faulted block serves nothing but `RESET`: everything else leaves the state unchanged (R18, R152). -/
def served (f : State → State) (s : State) : Host.Outcome State Fault Refusal :=
  .next (if s.fault = none then f s else s)

/-- A command's resolution: the slot is emptied and the completion delivered, or the packet is dropped for want of a
subscriber (R83, R94 to R96). -/
def settleCmd (c : Completion) (s : State) : State :=
  if s.rspSlot = .pending then complete c (setRspSlot .empty s) else s

/-- A receive's resolution, likewise (R83, R110). -/
def settleDat (c : Completion) (s : State) : State :=
  if s.datSlot = .pending then complete c (setDatSlot .empty s) else s

/-- `emit EV_RSP(p)`, resolved by the status word (R82, R94 to R96). -/
def emitRsp (p : ResponsePacket) (s : State) : State :=
  if p.status = ackWord then settleCmd (.cmdOk p.param) s
  else if p.status = nackWord then settleCmd (.cmdNack p.param) s
  else settleCmd (.cmdBadStatus p.status p.param) s

/-- `emit EV_DAT(p)` (R82, R110). -/
def emitDat (p : DataPacket) (s : State) : State := settleDat (.datOk p.payload) s

/-- `accept_response` (R77). -/
def acceptResponse (p : ResponsePacket) (s : State) : State := emitRsp p s

/-- `accept_data`: the expectation is cleared unless it is kept, then the packet is emitted (R78). -/
def acceptData (p : DataPacket) (s : State) : State :=
  emitDat p (if s.cfg.keepLenAfterData then s else unexpectLen s)

/-- The silent drop: the whole buffer and the expectation go, nothing else (R76, R144). -/
def dropAll (s : State) : State := unexpectLen (memClear s)

/-- Classification of the head of the buffer and the length its header needs; `none`: wait (R56, R72). -/
def classify (s : State) : Option (FrameKind × Nat) :=
  match headerKind s.buf with
  | none => none
  | some .response => some (.response, rspLen)
  | some .data =>
    match s.expLen with
    | .unknown => none
    | .known n => some (.data, n)

/-- What one pass of the extraction loop does (R71). -/
inductive Pass where
  /-- No complete frame at the head: the state stays. -/
  | wait
  /-- A valid frame was sliced and accepted: the loop goes on. -/
  | accepted (s : State)
  /-- A candidate failed its checksum: everything buffered went, the loop stops. -/
  | dropped (s : State)
deriving DecidableEq, Repr

/-- The verdict on a candidate already sliced off (R75 to R78). -/
def judge (kind : FrameKind) (cand : List Byte) (s : State) : Pass :=
  if checksumOk cand then
    match kind with
    | .response => .accepted (acceptResponse (responsePacket cand) s)
    | .data => .accepted (acceptData (dataPacket cand) s)
  else .dropped (dropAll s)

/-- One pass of the extraction loop: classify, length test, slice, validate (R72 to R75). -/
def extractPass (s : State) : Pass :=
  match classify s with
  | none => .wait
  | some (kind, need) =>
    if s.buf.length < need then .wait
    else judge kind (memRead 0 need s) (memDrop need s)

/-- The extraction loop, at most `fuel` passes (R71). -/
def extractLoop : Nat → State → State
  | 0, s => s
  | fuel + 1, s =>
    match extractPass s with
    | .wait => s
    | .accepted t => extractLoop fuel t
    | .dropped t => t

/-- `EXTRACT()`: a pass that goes on removes at least one byte, so as many passes as there are bytes are enough
(R71, R86). -/
def extract (s : State) : State := extractLoop s.buf.length s

end Sys2Proof.Machine
end

