-- ==== Sys2Proof/Machine/Command.lean ====
section
/-! DEFINITION. The command family: the Command frame, `SEND_CMD`, the resolution of a valid Response and `CMD_TIMEOUT`
(41_command.md). -/

namespace Sys2Proof.Machine

/-- `CMD`: the frame is built and handed to the transport in one write (R36, R91). The slot is `SEND_CMD`'s business. -/
def execCmd (opcode : Half) (param : Long) (s : State) : Host.Outcome State Fault Refusal :=
  served (txWrite (encCmd opcode param)) s

/-- `SEND_CMD` on a block that is not faulted: slot, then write; the slot is armed only if the transport took the frame
(R90, R92, R93, R149). -/
def sendCmd (opcode : Half) (param : Long) (s : State) : State :=
  if s.rspSlot = .pending then complete .cmdReuse s
  else if txAnswer s = .ok then setRspSlot .pending (txWrite (encCmd opcode param) s)
  else complete .cmdTxErr (txWrite (encCmd opcode param) s)

/-- `SEND_CMD` (R90). -/
def execSendCmd (opcode : Half) (param : Long) (s : State) : Host.Outcome State Fault Refusal :=
  served (sendCmd opcode param) s

/-- `RSP.ACK`: the packet of a candidate sliced off and found valid is emitted (R77, R83, R94). -/
def execRspAck (_devId param _reserved : Half) (s : State) : Host.Outcome State Fault Refusal :=
  served (settleCmd (.cmdOk param)) s

/-- `RSP.NACK` (R77, R83, R95). -/
def execRspNack (_devId param _reserved : Half) (s : State) : Host.Outcome State Fault Refusal :=
  served (settleCmd (.cmdNack param)) s

/-- `RSP.OTHER` (R77, R83, R96); a status of the other two rows is resolved as theirs. -/
def execRspOther (devId param reserved status : Half) (s : State) :
    Host.Outcome State Fault Refusal :=
  served (emitRsp ⟨devId, param, reserved, status, sum16 (rspBody devId param reserved status)⟩) s

/-- `CMD_TIMEOUT`: enabled iff `T_CMD` is set and `rsp_slot = PENDING`; no transition where it is not (R98, R147). -/
def execCmdTimeout (s : State) : Host.Outcome State Fault Refusal :=
  if faulted s then .next s
  else if cmdTimerArmed s then .next (complete .cmdTimeout (setRspSlot .empty s))
  else .refused .notEnabled

end Sys2Proof.Machine
end

