-- ==== Sys2Proof/Machine/Data.lean ====
section
/-! DEFINITION. The data family: `SEND_DATA`, `RECV_DATA`, the received Data frame and `DATA_TIMEOUT` (42_data.md). -/

namespace Sys2Proof.Machine

/-- `SEND_DATA` on a block that is not faulted: length, then write; it completes at once and touches no component
(R105, R149). -/
def sendData (payload : List Byte) (s : State) : State :=
  if payloadTooLong payload s then complete .sndInvalid s
  else if txAnswer s = .ok then complete .sndOk (txWrite (encDat payload) s)
  else complete .sndTxErr (txWrite (encDat payload) s)

/-- `SEND_DATA` (R105). -/
def execSendData (payload : List Byte) (s : State) : Host.Outcome State Fault Refusal :=
  served (sendData payload) s

/-- `RECV_DATA` on a block that is not faulted: slot, then range; the expectation is set and nothing is extracted
(R107 to R109, R149). -/
def recvData (n : Half) (s : State) : State :=
  if s.datSlot = .pending then complete .datReuse s
  else if lengthInRange n s then setDatSlot .pending (expectLen n.toNat s)
  else complete .datInvalid s

/-- `RECV_DATA` (R107). -/
def execRecvData (n : Half) (s : State) : Host.Outcome State Fault Refusal :=
  served (recvData n) s

/-- A Data candidate that the extraction rule has recognised and sliced off (R72, R74) is judged by the checksum it
carries (R75, R76, R78). -/
def judgeDat (p : DataPacket) (s : State) : State :=
  if p.checksum = sum16 (datBody p.devId p.payload) then acceptData p s else dropAll s

/-- `DAT`: judged, accepted and resolved, or dropped (R76, R78, R83, R110). -/
def execDat (devId : Half) (payload : List Byte) (checksum : Half) (s : State) :
    Host.Outcome State Fault Refusal :=
  served (judgeDat ⟨devId, payload, checksum⟩) s

/-- `DATA_TIMEOUT`: enabled iff `dat_slot = PENDING`; no transition where it is not (R111, R147). -/
def execDataTimeout (s : State) : Host.Outcome State Fault Refusal :=
  if faulted s then .next s
  else if dataTimerArmed s then .next (complete .datTimeout (unexpectLen (setDatSlot .empty s)))
  else .refused .notEnabled

end Sys2Proof.Machine
end

