-- ==== Sys2Proof/Machine/Framer.lean ====
section
/-! DEFINITION. The framer family: `FEED`, `EXTRACT`, `EXPECT`, `UNEXPECT` and the dropped Response (40_framer.md). -/

namespace Sys2Proof.Machine

/-- `FEED(chunk)` on a block that is not faulted (R70, R85). -/
def feed (chunk : List Byte) (s : State) : State :=
  if overflows chunk s then raiseFault .bufferOverflow s else extract (memAppend chunk s)

/-- `FEED` (R70). -/
def execFeed (chunk : List Byte) (s : State) : Host.Outcome State Fault Refusal :=
  served (feed chunk) s

/-- `EXTRACT` (R71). -/
def execExtract (s : State) : Host.Outcome State Fault Refusal := served extract s

/-- `EXPECT(n)`; the caller has checked the range (R79). -/
def execExpect (n : Half) (s : State) : Host.Outcome State Fault Refusal :=
  served (expectLen n.toNat) s

/-- `UNEXPECT` (R80). -/
def execUnexpect (s : State) : Host.Outcome State Fault Refusal := served unexpectLen s

/-- A Response candidate already sliced off (R74) is judged by the checksum it carries (R75 to R77). -/
def judgeRsp (p : ResponsePacket) (s : State) : State :=
  if p.checksum = sum16 (rspBody p.devId p.param p.reserved p.status) then acceptResponse p s
  else dropAll s

/-- `RSP.BADSUM`: the checksum being wrong, the candidate is dropped with everything buffered (R76). -/
def execRspBadsum (devId param reserved status checksum : Half) (s : State) :
    Host.Outcome State Fault Refusal :=
  served (judgeRsp ⟨devId, param, reserved, status, checksum⟩) s

end Sys2Proof.Machine
end

