-- ==== Sys2Proof/Machine/Ports.lean ====
section
/-! DEFINITION. What belongs to a port and to no family: `TxWrite`, the reserved request and `RESET`. -/

namespace Sys2Proof.Machine

/-- `TxWrite(frame)` (R36). -/
def execTxWrite (frame : List Byte) (s : State) : Host.Outcome State Fault Refusal :=
  served (txWrite frame) s

/-- The request with the reserved select: completed with `ILLEGAL_OP`, nothing written, no component changed (R64). -/
def execReqReserved (s : State) : Host.Outcome State Fault Refusal :=
  served (complete .illegalOp) s

/-- `RESET`: always enabled, on a faulted block too; it delivers nothing (R152, R160, R162). -/
def execReset (s : State) : Host.Outcome State Fault Refusal := .next (resetBlock s)

end Sys2Proof.Machine
end

