-- ==== Sys2Proof/Machine/Dispatch.lean ====
section
/-! DEFINITION. Dispatch: one arm per constructor of `Instr`, each one direct call of its meaning. -/

namespace Sys2Proof.Machine

def exec (i : Instr) (s : State) : Host.Outcome State Fault Refusal :=
  match i with
  | .cmd opcode param => Sys2Proof.Machine.execCmd opcode param s
  | .rspAck devId param reserved => Sys2Proof.Machine.execRspAck devId param reserved s
  | .rspNack devId param reserved => Sys2Proof.Machine.execRspNack devId param reserved s
  | .rspOther devId param reserved status => Sys2Proof.Machine.execRspOther devId param reserved status s
  | .rspBadsum devId param reserved status checksum => Sys2Proof.Machine.execRspBadsum devId param reserved status checksum s
  | .dat devId payload checksum => Sys2Proof.Machine.execDat devId payload checksum s
  | .sendCmd opcode param => Sys2Proof.Machine.execSendCmd opcode param s
  | .sendData payload => Sys2Proof.Machine.execSendData payload s
  | .recvData n => Sys2Proof.Machine.execRecvData n s
  | .reqReserved => Sys2Proof.Machine.execReqReserved s
  | .feed chunk => Sys2Proof.Machine.execFeed chunk s
  | .dataTimeout => Sys2Proof.Machine.execDataTimeout s
  | .cmdTimeout => Sys2Proof.Machine.execCmdTimeout s
  | .reset => Sys2Proof.Machine.execReset s
  | .extract => Sys2Proof.Machine.execExtract s
  | .expect n => Sys2Proof.Machine.execExpect n s
  | .unexpect => Sys2Proof.Machine.execUnexpect s
  | .txWrite frame => Sys2Proof.Machine.execTxWrite frame s

end Sys2Proof.Machine
end

