-- ==== Sys2Proof/Machine/Fetch.lean ====
section
/-! DEFINITION. What the next transition serves: the oldest event due (R40), with a timer event that is no longer
enabled taken away (R112, R147). The block has no program counter (R12). -/

namespace Sys2Proof.Machine

/-- A timer event whose timer is not armed when its turn comes: it was cancelled and is never served (R112, R147). -/
def cancelled (p : Input) (s : State) : Bool :=
  match p with
  | .tmrData => !dataTimerArmed s
  | .tmrCmd => !cmdTimerArmed s
  | _ => false

/-- What the next transition is to do. -/
inductive Fetched where
  /-- No event is due: the block is quiescent (R181). -/
  | idle
  /-- The event due was a cancelled timer's: it goes away and nothing else happens. -/
  | dismissed (s : State)
  /-- The event due is served, in the state without it. -/
  | serve (i : Instr) (s : State)
deriving DecidableEq, Repr

/-- The oldest event due, decoded (R40, R65). -/
def fetch (s : State) : Fetched :=
  match s.inbox with
  | [] => .idle
  | p :: rest =>
    if cancelled p s then .dismissed { s with inbox := rest }
    else .serve (decodeInput p) { s with inbox := rest }

/-- Puts an event where the next transition fetches it. For a frame on RX the buffer is emptied, so that the frame
stands at its head, and for a Data frame the expectation is set to its length (R56, R71; log entry 6). -/
def placeInput (p : Input) (s : State) : State :=
  match p with
  | .rx frame =>
    { s with
      inbox := .rx frame :: s.inbox
      buf := []
      expLen := if headerKind frame = some .data then .known frame.length else s.expLen }
  | p => { s with inbox := p :: s.inbox }

end Sys2Proof.Machine
end

