-- ==== Sys2Proof/Machine/Step.lean ====
section
/-! DEFINITION. One step of the machine: one event served in one atomic transition (R40). -/

namespace Sys2Proof.Machine

/-- Serves the oldest event due; with none due, or a cancelled one, the block does nothing (R40, R147, R181). -/
def step (s : State) : Host.Outcome State Fault Refusal :=
  match fetch s with
  | .idle => .next s
  | .dismissed t => .next t
  | .serve i t => exec i t

/-- The state with a table word's instruction as the next event due (log entry 6). -/
def State.withFetchWord (s : State) (nbits w : Nat) : State := placeInput (tableInput nbits w) s

end Sys2Proof.Machine
end

