-- ==== Sys2Proof/Safety.lean ====
section
/-! DEFINITION. The terms claims are stated in: the invariant of every reachable state, the quiescent, idle and clean
states of R181, the wedge of R170, sequences of events (R40) and the memory's canonical form. -/

namespace Sys2Proof.Machine

/-- The memory of the block is the buffer: a byte sequence of its own canonical form, within the capacity (R13, R30). -/
def Memory.wf (s : State) : Bool :=
  match s.cfg.bufCap with
  | none => true
  | some c => decide (s.buf.length ≤ c)

/-- `LEN_MIN ≤ n ≤ LEN_MAX` for a known expectation (R10, R14). -/
def State.expLenInRange (s : State) : Bool :=
  match s.expLen with
  | .unknown => true
  | .known n => decide (lenMin ≤ n) && decide (n ≤ s.cfg.lenMax)

/-- With the expectation not kept after a valid Data frame, a known expectation implies a pending receive (R23). -/
def State.expectationHasReceiver (s : State) : Bool :=
  s.cfg.keepLenAfterData || !expKnown s || datPending s

/-- The latch is set only with a finite buffer (R18). -/
def State.faultNeedsCapacity (s : State) : Bool := !faulted s || s.cfg.bufCap.isSome

/-- The invariant of the block: usable parameters (R5), the buffer within its capacity (R13), the expectation in range
(R14), the implication of R23, and the fault's ground (R18). -/
def State.Inv (s : State) : Prop :=
  s.cfg.wf = true ∧ Memory.wf s = true ∧ s.expLenInRange = true ∧ s.expectationHasReceiver = true
    ∧ s.faultNeedsCapacity = true

/-- A run is safe while the latch is not set (R152). -/
def State.safe (s : State) : Bool := !faulted s

/-- Idle: nothing outstanding (R181). -/
def State.idle (s : State) : Bool := decide (s.rspSlot = .empty ∧ s.datSlot = .empty)

/-- Clean: idle, and the framer as after reset (R181). -/
def State.clean (s : State) : Bool :=
  s.idle && decide (s.buf = [] ∧ s.expLen = .unknown ∧ s.fault = none)

/-- The head of the buffer is classified and complete: what R22 says no `FEED` leaves behind. -/
def State.headComplete (s : State) : Bool :=
  match classify s with
  | none => false
  | some (_, need) => decide (need ≤ s.buf.length)

/-- The wedge of R170: at least two bytes, and the leading two are no known header. -/
def State.wedged (s : State) : Bool := decide (2 ≤ s.buf.length) && (headerKind s.buf).isNone

/-- No candidate fails its checksum in the next `fuel` passes of the extraction loop. -/
def noMismatchWithin : Nat → State → Bool
  | 0, _ => true
  | fuel + 1, s =>
    match extractPass s with
    | .wait => true
    | .accepted t => noMismatchWithin fuel t
    | .dropped _ => false

/-- Extraction from this state ends without a checksum mismatch (R39). -/
def State.extractsWithoutMismatch (s : State) : Bool := noMismatchWithin s.buf.length s

/-- Events served one after the other, each in the state the one before it left (R40). -/
def serveAll : List Instr → State → Host.Outcome State Fault Refusal
  | [], s => .next s
  | i :: rest, s =>
    match exec i s with
    | .next t => serveAll rest t
    | .fault r => .fault r
    | .refused r => .refused r

/-- The state with its output logs emptied: all that R19 says a transition may depend on. -/
def State.withoutLogs (s : State) : State := { s with txLog := [], cplLog := [] }

end Sys2Proof.Machine
end

