-- ==== Sys2Proof/Certificates/Slice0/Obligations.lean ====
section
/-! DEFINITION. The statements for the provers, each a rule of spec/ or a consequence of its rules. A statement with
`.next` as its conclusion gives the whole next state, so everything it does not name is unchanged. -/

open Sys2Proof Sys2Proof.Machine

/-! ### Encodings -/

/-- R51, R52, R53, R63, R65: no operand bit of a well-formed instruction is lost between encoder and decoder. -/
def Obligations.EncodeDecodeRoundTrip : Prop :=
  ∀ (i : Instr) (w : Wire), i.wf = true → encode i = some w → decode w = .ok i

/-- R51, R52, R53, R56, R58, R68: what the decoder accepts is well-formed, and a frame it accepts has the header, the
length, the status and the checksum, right or wrong, of the row it is decoded as, with the fields where they stand. -/
def Obligations.DecodedInstructionIsWellFormed : Prop :=
  (∀ (w : Wire) (i : Instr), decode w = .ok i → i.wf = true) ∧
  (∀ (f : List Byte) (i : Instr), decodeRx f = .ok i →
    let response : Prop := f.take 2 = [0x55, 0xAA] ∧ f.length = 12
    let fields (d p r : Half) : Prop := d = le16 f 2 ∧ p = le16 f 4 ∧ r = le16 f 6
    match i with
    | .rspAck d p r => response ∧ fields d p r ∧ le16 f 8 = 0x0030 ∧ sum16 (f.take 10) = le16 f 10
    | .rspNack d p r => response ∧ fields d p r ∧ le16 f 8 = 0x0031 ∧ sum16 (f.take 10) = le16 f 10
    | .rspOther d p r st => response ∧ fields d p r ∧ st = le16 f 8 ∧ st ≠ 0x0030 ∧ st ≠ 0x0031 ∧
        sum16 (f.take 10) = le16 f 10
    | .rspBadsum d p r st c => response ∧ fields d p r ∧ st = le16 f 8 ∧ c = le16 f 10 ∧ sum16 (f.take 10) ≠ c
    | .dat d payload c => f.take 2 = [0x5A, 0xA5] ∧ f.length = payload.length + 6 ∧ d = le16 f 2 ∧
        payload = (f.drop 4).take payload.length ∧ c = le16 f (f.length - 2)
    | _ => False) ∧
  (∀ (f : List Byte) (i : Instr), decodeTx f = .ok i →
    match i with
    | .cmd opcode param => f.take 4 = [0x55, 0xAA, 0x01, 0x00] ∧ f.length = 12 ∧ param = le32 f 4 ∧
        opcode = le16 f 8 ∧ sum16 (f.take 10) = le16 f 10
    | .dat d payload c => f.take 4 = [0x5A, 0xA5, 0x01, 0x00] ∧ f.length = payload.length + 6 ∧ d = 0x0001 ∧
        payload = (f.drop 4).take payload.length ∧ c = le16 f (f.length - 2) ∧ sum16 (f.take (f.length - 2)) = c
    | _ => False)

/-- R52, R53, R81: "They carry every field of the frame so that no received bit is lost": the received bytes can be
built again from the decoded instruction. -/
def Obligations.ReceivedFrameReencodesToItself : Prop :=
  ∀ (f : List Byte) (i : Instr), decodeRx f = .ok i → encode i = some (.rxFrame f)

/-- R65: `EXTRACT`, `EXPECT`, `UNEXPECT` and `TxWrite` are selectable from no port and no frame decodes to one. -/
def Obligations.InternalOperationsHaveNoEncoding : Prop :=
  ∀ (i : Instr), (encode i = none ↔ i = .extract ∨ i = .unexpect ∨ (∃ n, i = .expect n) ∨ ∃ f, i = .txWrite f) ∧
    (encode i = none → ∀ w : Wire, decode w ≠ .ok i)

/-- R63, R64: the four select codes. -/
def Obligations.RequestSelectDecodes : Prop :=
  ∀ (opcode : Half) (param : Long) (payload : List Byte) (n : Half),
    decode (.input (.req ⟨0b01, opcode, param, payload, n⟩)) = .ok (.sendCmd opcode param) ∧
    decode (.input (.req ⟨0b10, opcode, param, payload, n⟩)) = .ok (.sendData payload) ∧
    decode (.input (.req ⟨0b11, opcode, param, payload, n⟩)) = .ok (.recvData n) ∧
    decode (.input (.req ⟨0b00, opcode, param, payload, n⟩)) = .ok .reqReserved

/-- Sample frames written out from R51 to R53, with the meanings 95_test_vectors.md gives them. -/
def Obligations.SampleFramesDecode : Prop :=
  decodeTx [0x55, 0xAA, 0x01, 0x00, 0xD4, 0xC3, 0xB2, 0xA1, 0x34, 0x12, 0x30, 0x04]
      = .ok (.cmd 0x1234 0xA1B2C3D4) ∧
  decodeRx [0x55, 0xAA, 0x01, 0x00, 0x05, 0x00, 0x00, 0x00, 0x30, 0x00, 0x35, 0x01]
      = .ok (.rspAck 1 5 0) ∧
  decodeRx [0x55, 0xAA, 0x01, 0x00, 0x0C, 0x10, 0x00, 0x00, 0x31, 0x00, 0x4D, 0x01]
      = .ok (.rspNack 1 0x100C 0) ∧
  decodeRx [0x55, 0xAA, 0x01, 0x00, 0x00, 0x00, 0x34, 0x12, 0x32, 0x00, 0x78, 0x01]
      = .ok (.rspOther 1 0 0x1234 0x32) ∧
  decodeRx [0x55, 0xAA, 0x01, 0x00, 0x00, 0x00, 0x00, 0x00, 0x30, 0x00, 0x31, 0x01]
      = .ok (.rspBadsum 1 0 0 0x30 0x0131) ∧
  decodeRx [0x5A, 0xA5, 0x01, 0x00, 0x01, 0x02, 0x03, 0x06, 0x01]
      = .ok (.dat 1 [1, 2, 3] 0x0106)

/-- R91: the twelve bytes of a Command frame, its checksum, the bound on the sum and the rule's example. -/
def Obligations.CommandFrameLayout : Prop :=
  (∀ (opcode : Half) (param : Long),
    let p (k : Nat) : Byte := param.extractLsb' (8 * k) 8
    let o (k : Nat) : Byte := opcode.extractLsb' (8 * k) 8
    let total : Nat := 0x100 + (p 0).toNat + (p 1).toNat + (p 2).toNat + (p 3).toNat + (o 0).toNat + (o 1).toNat
    let c : Half := BitVec.ofNat 16 total
    total ≤ 1786 ∧
    encCmd opcode param =
      [0x55, 0xAA, 0x01, 0x00, p 0, p 1, p 2, p 3, o 0, o 1, c.extractLsb' 0 8, c.extractLsb' 8 8] ∧
    (c.extractLsb' 8 8).toNat ≤ 0x06) ∧
  encCmd 0x0001 0x00000000 =
    [0x55, 0xAA, 0x01, 0x00, 0x00, 0x00, 0x00, 0x00, 0x01, 0x00, 0x01, 0x01]

/-- R106: the bytes of a Data frame and its checksum, and the rule's example of 300 bytes `FF`. -/
def Obligations.DataFrameLayout : Prop :=
  (∀ payload : List Byte,
    let c : Half := BitVec.ofNat 16 (0x100 + (payload.map BitVec.toNat).sum)
    encDat payload = [0x5A, 0xA5, 0x01, 0x00] ++ payload ++ [c.extractLsb' 0 8, c.extractLsb' 8 8]) ∧
  encDat (List.replicate 300 0xFF) =
    [0x5A, 0xA5, 0x01, 0x00] ++ List.replicate 300 0xFF ++ [0xD4, 0x2B]

/-- R36, R51, R53, R61: every frame the block builds is a frame of the TX stream and decodes to its operands, whatever
the payload's length; a built Data frame reads the same on the RX stream. -/
def Obligations.BuiltFramesDecode : Prop :=
  (∀ (opcode : Half) (param : Long), isTxFrame (encCmd opcode param) = true ∧
    decodeTx (encCmd opcode param) = .ok (.cmd opcode param)) ∧
  (∀ payload : List Byte,
    let i : Instr := .dat 0x0001 payload (BitVec.ofNat 16 (0x100 + (payload.map BitVec.toNat).sum))
    isTxFrame (encDat payload) = true ∧ decodeTx (encDat payload) = .ok i ∧ decodeRx (encDat payload) = .ok i)

/-- R84 (e), R177: the checksum is blind to the order of the summed bytes and sees every single changed byte. -/
def Obligations.ChecksumIgnoresOrderAndSeesOneByte : Prop :=
  (∀ a b : List Byte, a.Perm b → sum16 a = sum16 b) ∧
  (∀ (pre post : List Byte) (x y : Byte), x ≠ y → sum16 (pre ++ x :: post) ≠ sum16 (pre ++ y :: post))

/-! ### The extraction rule -/

/-- R72: the head of the buffer is classified from its two leading bytes and the expectation, and from nothing else;
where there is no classification the framer waits, its state as it is. -/
def Obligations.HeadClassification : Prop :=
  ∀ s : State,
    (s.buf.length < 2 → classify s = none) ∧
    (∀ (b0 b1 : Byte) (rest : List Byte), s.buf = b0 :: b1 :: rest →
      (b0 = 0x55 ∧ b1 = 0xAA → classify s = some (.response, 12)) ∧
      (∀ n, b0 = 0x5A ∧ b1 = 0xA5 → s.expLen = .known n → classify s = some (.data, n)) ∧
      (b0 = 0x5A ∧ b1 = 0xA5 → s.expLen = .unknown → classify s = none) ∧
      (¬(b0 = 0x55 ∧ b1 = 0xAA) → ¬(b0 = 0x5A ∧ b1 = 0xA5) → classify s = none)) ∧
    (∀ t : State, t.buf.take 2 = s.buf.take 2 → t.expLen = s.expLen → classify t = classify s) ∧
    (s.fault = none → classify s = none → exec .extract s = .next s)

/-- R71, R72, R73: `EXTRACT` leaves the state as it is while the head is no known header, is a Data header with no
expectation, or is shorter than it needs to be. -/
def Obligations.ExtractionWaits : Prop :=
  ∀ s : State, s.fault = none →
    (s.buf.length < 2 → exec .extract s = .next s) ∧
    ∀ (b0 b1 : Byte) (rest : List Byte), s.buf = b0 :: b1 :: rest →
      (¬(b0 = 0x55 ∧ b1 = 0xAA) → ¬(b0 = 0x5A ∧ b1 = 0xA5) → exec .extract s = .next s) ∧
      (b0 = 0x55 ∧ b1 = 0xAA → s.buf.length < 12 → exec .extract s = .next s) ∧
      (b0 = 0x5A ∧ b1 = 0xA5 → s.expLen = .unknown → exec .extract s = .next s) ∧
      (∀ n, b0 = 0x5A ∧ b1 = 0xA5 → s.expLen = .known n → s.buf.length < n → exec .extract s = .next s)

/-- R71, R74, R75, R82: a complete candidate at the head is sliced off, decoded and run, and extraction then goes on
from the state that left. -/
def Obligations.ExtractionRunsTheDecodedFrame : Prop :=
  ∀ (s : State) (kind : FrameKind) (cand rest : List Byte) (i : Instr), s.fault = none → s.Inv →
    s.buf = cand ++ rest → classify s = some (kind, cand.length) → decodeRx cand = .ok i →
    exec .extract s = serveAll [i, .extract] { s with buf := rest } ∧ ∃ t, exec .extract s = .next t

/-- R86: `EXTRACT` ends after at most `len(buf) div 6` passes; more passes change nothing. -/
def Obligations.ExtractionPassBound : Prop :=
  ∀ (s : State) (passes : Nat), s.Inv → s.buf.length / 6 ≤ passes → extractLoop passes s = extract s

/-- R70, R85: `FEED` appends the whole chunk and extracts; a chunk that does not fit is not appended and faults. -/
def Obligations.FeedAppendsThenExtracts : Prop :=
  ∀ (chunk : List Byte) (s : State), s.fault = none →
    ((∀ cap, s.cfg.bufCap = some cap → s.buf.length + chunk.length ≤ cap) →
      exec (.feed chunk) s = exec .extract { s with buf := s.buf ++ chunk } ∧
      ∃ t, exec (.feed chunk) s = .next t) ∧
    (∀ cap, s.cfg.bufCap = some cap → cap < s.buf.length + chunk.length →
      exec (.feed chunk) s = .next { s with fault := some .bufferOverflow })

/-- R22: no `FEED` leaves a classified and complete frame at the head of the buffer. -/
def Obligations.NoCompleteFrameLeftAtHead : Prop :=
  ∀ (chunk : List Byte) (s t : State), s.fault = none → s.Inv → overflows chunk s = false →
    exec (.feed chunk) s = .next t →
    (∀ rest, t.buf = 0x55 :: 0xAA :: rest → t.buf.length < 12) ∧
    (∀ rest n, t.buf = 0x5A :: 0xA5 :: rest → t.expLen = .known n → t.buf.length < n)

/-- R42: within one `FEED` at most one completion settles each slot, and only a slot that was pending. -/
def Obligations.AtMostOneSettlementPerSlot : Prop :=
  ∀ (chunk : List Byte) (s t : State), exec (.feed chunk) s = .next t →
    ∃ delivered, t.cplLog = s.cplLog ++ delivered ∧
      (delivered.filter isResponseCompletion).length ≤ (if s.rspSlot = .pending then 1 else 0) ∧
      (delivered.filter isDataCompletion).length ≤ (if s.datSlot = .pending then 1 else 0) ∧
      ∀ k ∈ delivered, isResponseCompletion k = true ∨ isDataCompletion k = true

/-! ### Received frames -/

/-- R52, R58, R71, R94, R95, R96: a valid Response fed to an empty buffer settles the pending command by its status. -/
def Obligations.FedResponseSettlesTheCommand : Prop :=
  ∀ (devId param reserved status : Half) (s : State),
    s.fault = none → s.buf = [] → s.rspSlot = .pending →
    overflows (withChecksum (rspBody devId param reserved status)) s = false →
    exec (.feed (withChecksum (rspBody devId param reserved status))) s = .next { s with
      rspSlot := .empty
      cplLog := s.cplLog ++
        [if status = 0x0030 then .cmdOk param
         else if status = 0x0031 then .cmdNack param
         else .cmdBadStatus status param] }

/-- R94: an ACK Response settles the pending command with the 16-bit `param` at offsets 4 to 5. -/
def Obligations.AckSettlesTheCommand : Prop :=
  (∀ (devId param reserved : Half) (s : State), s.fault = none → s.rspSlot = .pending →
    exec (.rspAck devId param reserved) s = .next { s with
      rspSlot := .empty
      cplLog := s.cplLog ++ [.cmdOk param] }) ∧
  (∀ s t : State, ∀ devId param reserved : Half, s.fault = none → s.rspSlot = .pending →
    exec (.rspAck devId param reserved) s = .next t → cmdTimerArmed t = false) ∧
  (∀ (f : List Byte) (devId param reserved : Half), decodeRx f = .ok (.rspAck devId param reserved) →
    f.length = 12 ∧ f[8]? = some 0x30 ∧ f[9]? = some 0x00 ∧ param = le16 f 4) ∧
  (∀ s : State, s.fault = none → s.cfg.bufCap = none → s.buf = [] → s.rspSlot = .pending →
    exec (.feed [0x55, 0xAA, 0x01, 0x00, 0x05, 0x00, 0x00, 0x00, 0x30, 0x00, 0x35, 0x01]) s
      = .next { s with rspSlot := .empty, cplLog := s.cplLog ++ [.cmdOk 0x0005] })

/-- R95 (the spec's decision D11: the reason is the response's `param`): a NACK Response settles the command. -/
def Obligations.NackSettlesTheCommand : Prop :=
  ∀ (devId param reserved : Half) (s : State), s.fault = none → s.rspSlot = .pending →
    exec (.rspNack devId param reserved) s = .next { s with
      rspSlot := .empty
      cplLog := s.cplLog ++ [.cmdNack param] }

/-- R96 (the spec's decision D12): any other status settles the command with an error of its own. -/
def Obligations.OtherStatusSettlesTheCommand : Prop :=
  ∀ (devId param reserved status : Half) (s : State), s.fault = none → s.rspSlot = .pending →
    status ≠ 0x0030 → status ≠ 0x0031 →
    exec (.rspOther devId param reserved status) s = .next { s with
      rspSlot := .empty
      cplLog := s.cplLog ++ [.cmdBadStatus status param] }

/-- R78, R110 (the spec's decisions D6, D25): a valid Data frame clears the expectation, unless it is kept, and settles
the pending receive with its payload. -/
def Obligations.DataFrameSettlesTheReceive : Prop :=
  ∀ (devId : Half) (payload : List Byte) (s : State), s.fault = none → s.datSlot = .pending →
    exec (.dat devId payload (sum16 (datBody devId payload))) s = .next { s with
      expLen := if s.cfg.keepLenAfterData then s.expLen else .unknown
      datSlot := .empty
      cplLog := s.cplLog ++ [.datOk payload] }

/-- R83, R174 (the spec's decision D8): with no operation pending a valid packet is dropped, and fed to an empty buffer
it is consumed. The frame rows leave the buffer alone: the slice is `EXTRACT`'s (DEDUCED, log entry 7). -/
def Obligations.UnsolicitedPacketsVanish : Prop :=
  (∀ (devId param reserved : Half) (s : State), s.fault = none → s.rspSlot = .empty →
    exec (.rspAck devId param reserved) s = .next s ∧ exec (.rspNack devId param reserved) s = .next s ∧
    ∀ status, exec (.rspOther devId param reserved status) s = .next s) ∧
  (∀ (devId : Half) (payload : List Byte) (s : State), s.fault = none → s.datSlot = .empty →
    exec (.dat devId payload (sum16 (datBody devId payload))) s = .next { s with
      expLen := if s.cfg.keepLenAfterData then s.expLen else .unknown }) ∧
  (∀ (devId param reserved status : Half) (s : State), s.fault = none → s.buf = [] → s.rspSlot = .empty →
    overflows (withChecksum (rspBody devId param reserved status)) s = false →
    exec (.feed (withChecksum (rspBody devId param reserved status))) s = .next s) ∧
  (∀ (devId : Half) (payload : List Byte) (s : State), s.fault = none → s.buf = [] → s.datSlot = .empty →
    s.expLen = .known (payload.length + 6) → overflows (withChecksum (datBody devId payload)) s = false →
    exec (.feed (withChecksum (datBody devId payload))) s = .next { s with
      expLen := if s.cfg.keepLenAfterData then s.expLen else .unknown })

/-- R76: a candidate of either kind whose checksum fails is dropped with everything buffered, the expectation goes, and
nothing else changes; a pending receive keeps its timer. -/
def Obligations.MismatchDropsEverything : Prop :=
  (∀ (d p r st c : Half) (s : State), s.fault = none → c ≠ sum16 (rspBody d p r st) →
    exec (.rspBadsum d p r st c) s = .next { s with buf := [], expLen := .unknown }) ∧
  (∀ (d c : Half) (payload : List Byte) (s : State), s.fault = none → c ≠ sum16 (datBody d payload) →
    exec (.dat d payload c) s = .next { s with buf := [], expLen := .unknown }) ∧
  (∀ (d p r st c : Half) (rest : List Byte) (s : State), s.fault = none → c ≠ sum16 (rspBody d p r st) →
    s.buf = rspBody d p r st ++ b16 c ++ rest →
    exec .extract s = .next { s with buf := [], expLen := .unknown }) ∧
  (∀ (d c : Half) (payload rest : List Byte) (s : State), s.fault = none → c ≠ sum16 (datBody d payload) →
    s.buf = datBody d payload ++ b16 c ++ rest → s.expLen = .known (payload.length + 6) →
    exec .extract s = .next { s with buf := [], expLen := .unknown }) ∧
  (∀ s : State, dataTimerArmed { s with buf := [], expLen := .unknown } = dataTimerArmed s) ∧
  (∀ s : State, s.fault = none → s.cfg.bufCap = none → s.buf = [] → s.expLen = .known 30 →
    exec (.feed [0x55, 0xAA, 0x01, 0x00, 0x00, 0x00, 0x00, 0x00, 0x30, 0x00, 0x31, 0x01, 0x5A, 0xA5]) s
      = .next { s with expLen := .unknown })

/-- R42, R82, R110: a Response and a Data frame in one chunk settle both slots, in the order of the frames. -/
def Obligations.ResponseThenDataInOneChunk : Prop :=
  ∀ (devId param reserved devId' : Half) (payload : List Byte) (s : State),
    s.fault = none → s.buf = [] →
    overflows (withChecksum (rspBody devId param reserved 0x0030) ++ withChecksum (datBody devId' payload)) s = false →
    s.rspSlot = .pending → s.datSlot = .pending → s.expLen = .known (payload.length + 6) →
    exec (.feed (withChecksum (rspBody devId param reserved 0x0030) ++ withChecksum (datBody devId' payload))) s
      = .next { s with
        expLen := if s.cfg.keepLenAfterData then s.expLen else .unknown
        rspSlot := .empty
        datSlot := .empty
        cplLog := s.cplLog ++ [.cmdOk param, .datOk payload] }

/-- R62, R175: a Command frame that comes back on RX settles the pending command as a Response whose `status` is the
opcode and whose `param` is the low half of the command's. -/
def Obligations.EchoedCommandIsTakenForAResponse : Prop :=
  ∀ (opcode : Half) (param : Long) (s : State),
    s.fault = none → overflows (encCmd opcode param) s = false → s.buf = [] → s.rspSlot = .pending →
    exec (.feed (encCmd opcode param)) s = .next { s with
      rspSlot := .empty
      cplLog := s.cplLog ++
        [if opcode = 0x0030 then .cmdOk (param.setWidth 16)
         else if opcode = 0x0031 then .cmdNack (param.setWidth 16)
         else .cmdBadStatus opcode (param.setWidth 16)] }

/-! ### Host requests -/

/-- R90, R36 (the spec's decisions D2, D13): an accepted `SEND_CMD` writes its frame once and arms the slot. -/
def Obligations.SendCommandWritesAndArms : Prop :=
  ∀ (opcode : Half) (param : Long) (s : State), s.fault = none → s.rspSlot = .empty → txAnswer s = .ok →
    exec (.sendCmd opcode param) s = .next { s with
      rspSlot := .pending
      txAnswers := s.txAnswers.tail
      txCount := s.txCount + 1
      txLog := s.txLog ++ [⟨encCmd opcode param, .ok⟩] }

/-- R92, R149: a second `SEND_CMD` is refused whatever the transport would answer, and the first is still resolved by
the next Response. -/
def Obligations.SecondCommandIsRefused : Prop :=
  ∀ (opcode : Half) (param : Long) (s : State), s.fault = none → s.rspSlot = .pending →
    exec (.sendCmd opcode param) s = .next { s with cplLog := s.cplLog ++ [.cmdReuse] } ∧
    ∀ devId p reserved, serveAll [.sendCmd opcode param, .rspAck devId p reserved] s = .next { s with
      rspSlot := .empty
      cplLog := s.cplLog ++ [.cmdReuse, .cmdOk p] }

/-- R93: a command whose write fails is rejected at once and awaits nothing. -/
def Obligations.FailedCommandWriteIsReported : Prop :=
  ∀ (opcode : Half) (param : Long) (s : State), s.fault = none → s.rspSlot = .empty → txAnswer s = .fail →
    exec (.sendCmd opcode param) s = .next { s with
      txAnswers := s.txAnswers.tail
      txCount := s.txCount + 1
      txLog := s.txLog ++ [⟨encCmd opcode param, .fail⟩]
      cplLog := s.cplLog ++ [.cmdTxErr] }

/-- R105, R149 (the spec's decision D21): `SEND_DATA` tests the length, then writes, and completes at once. -/
def Obligations.SendDataCompletesAtOnce : Prop :=
  ∀ (payload : List Byte) (s : State), s.fault = none →
    (s.cfg.lenMax - 6 < payload.length →
      exec (.sendData payload) s = .next { s with cplLog := s.cplLog ++ [.sndInvalid] }) ∧
    (payload.length ≤ s.cfg.lenMax - 6 →
      exec (.sendData payload) s = .next { s with
        txAnswers := s.txAnswers.tail
        txCount := s.txCount + 1
        txLog := s.txLog ++ [⟨encDat payload, txAnswer s⟩]
        cplLog := s.cplLog ++ [match txAnswer s with | .ok => .sndOk | .fail => .sndTxErr] })

/-- R107, R79: an accepted `RECV_DATA` sets the expectation and arms the slot; the buffer is not looked at. -/
def Obligations.ReceiveDataArms : Prop :=
  ∀ (n : Half) (s : State), s.fault = none → s.datSlot = .empty → 6 ≤ n.toNat → n.toNat ≤ s.cfg.lenMax →
    exec (.recvData n) s = .next { s with expLen := .known n.toNat, datSlot := .pending }

/-- R108, R109, R149: the slot is tested before the range, and a refused `RECV_DATA` changes nothing. -/
def Obligations.ReceiveDataRefusals : Prop :=
  ∀ (n : Half) (s : State), s.fault = none →
    (s.datSlot = .pending →
      exec (.recvData n) s = .next { s with cplLog := s.cplLog ++ [.datReuse] }) ∧
    (s.datSlot = .empty → (n.toNat < 6 ∨ s.cfg.lenMax < n.toNat) →
      exec (.recvData n) s = .next { s with cplLog := s.cplLog ++ [.datInvalid] })

/-- R64 (the spec's decision D20): the reserved request completes with `ILLEGAL_OP` and does nothing else. -/
def Obligations.ReservedRequestIsIllegal : Prop :=
  ∀ s : State, s.fault = none →
    exec .reqReserved s = .next { s with cplLog := s.cplLog ++ [.illegalOp] }

/-- R44, R107 (the spec's decision D7): `RECV_DATA` does not extract a Data frame already buffered; the next `FEED`,
whatever its chunk, delivers it first and goes on as a `FEED` of that chunk behind what followed the frame. -/
def Obligations.ReceiveDataTakesEffectAtTheNextFeed : Prop :=
  ∀ (devId : Half) (payload rest : List Byte) (s : State), s.fault = none → s.datSlot = .empty →
    payload.length + 6 ≤ 65535 → payload.length + 6 ≤ s.cfg.lenMax →
    s.buf = withChecksum (datBody devId payload) ++ rest →
    let recv : Instr := .recvData (BitVec.ofNat 16 (payload.length + 6))
    let delivered : State := { s with
      buf := rest
      expLen := if s.cfg.keepLenAfterData then .known (payload.length + 6) else .unknown
      cplLog := s.cplLog ++ [.datOk payload] }
    exec recv s = .next { s with expLen := .known (payload.length + 6), datSlot := .pending } ∧
    (∀ chunk, overflows chunk s = false →
      serveAll [recv, .feed chunk] s = exec (.feed chunk) delivered ∧
      ∃ t, serveAll [recv, .feed chunk] s = .next t ∧ s.cplLog ++ [.datOk payload] <+: t.cplLog) ∧
    (rest = [] → overflows [] s = false → serveAll [recv, .feed []] s = .next delivered)

/-! ### Timers, reset and the micro-operations -/

/-- R111, R147: `DATA_TIMEOUT` has a transition exactly while a receive is pending; it settles the receive, clears the
expectation and leaves the buffer and the command alone. -/
def Obligations.DataTimeoutSettlesTheReceive : Prop :=
  ∀ s : State, s.fault = none →
    (s.datSlot = .pending →
      exec .dataTimeout s = .next { s with
        expLen := .unknown
        datSlot := .empty
        cplLog := s.cplLog ++ [.datTimeout] }) ∧
    (s.datSlot = .empty → exec .dataTimeout s = .refused .notEnabled)

/-- R98, R147 (the spec's decision D16): `CMD_TIMEOUT` exists only with `T_CMD` set, is enabled exactly while a command
is pending, and settles it. -/
def Obligations.CommandTimeoutSettlesTheCommand : Prop :=
  ∀ s : State, s.fault = none →
    (s.cfg.tCmd ≠ none → s.rspSlot = .pending →
      exec .cmdTimeout s = .next { s with
        rspSlot := .empty
        cplLog := s.cplLog ++ [.cmdTimeout] }) ∧
    (s.cfg.tCmd = none ∨ s.rspSlot = .empty → exec .cmdTimeout s = .refused .notEnabled)

/-- R160, R161, R162 (the spec's decision D15): `RESET` puts the five components at their reset values in every state,
delivers nothing and touches no parameter, input or log. -/
def Obligations.ResetRestoresTheBlock : Prop :=
  ∀ s : State, exec .reset s = .next { s with
    buf := State.reset.buf
    expLen := State.reset.expLen
    rspSlot := State.reset.rspSlot
    datSlot := State.reset.datSlot
    fault := State.reset.fault }

/-- R24 (the spec's decision D15): the reset values. -/
def Obligations.ResetValues : Prop :=
  State.reset.buf = [] ∧ State.reset.expLen = .unknown ∧ State.reset.rspSlot = .empty ∧
  State.reset.datSlot = .empty ∧ State.reset.fault = none ∧ dataTimerArmed State.reset = false ∧
  State.reset.txLog = [] ∧ State.reset.cplLog = []

/-- R79, R80: `EXPECT` and `UNEXPECT` write `exp_len` only, and neither extracts. -/
def Obligations.ExpectedLengthMicroOperations : Prop :=
  ∀ (n : Half) (s : State), s.fault = none →
    exec (.expect n) s = .next { s with expLen := .known n.toNat } ∧
    exec .unexpect s = .next { s with expLen := .unknown }

/-- R36, R51, R91: a frame is handed over whole in one write, which draws one answer and is logged with it. -/
def Obligations.FramesAreWrittenWhole : Prop :=
  ∀ s : State, s.fault = none →
    (∀ frame, exec (.txWrite frame) s = .next { s with
      txAnswers := s.txAnswers.tail
      txCount := s.txCount + 1
      txLog := s.txLog ++ [⟨frame, txAnswer s⟩] }) ∧
    (∀ opcode param, exec (.cmd opcode param) s = exec (.txWrite (encCmd opcode param)) s ∧
      exec (.cmd opcode param) s = .next { s with
        txAnswers := s.txAnswers.tail
        txCount := s.txCount + 1
        txLog := s.txLog ++ [⟨encCmd opcode param, txAnswer s⟩] })

/-! ### The whole machine -/

/-- R40, R65, R112, R147, R181: a step serves the oldest event due as the operation it decodes to; a cancelled timer's
event goes away; with no event due the state stays. -/
def Obligations.StepServesTheOldestEvent : Prop :=
  ∀ s : State,
    (s.inbox = [] → step s = .next s) ∧
    ∀ (p : Input) (rest : List Input), s.inbox = p :: rest →
      (cancelled p s = false → step s = exec (decodeInput p) { s with inbox := rest }) ∧
      (cancelled p s = true → step s = .next { s with inbox := rest }) ∧
      (cancelled p s = true ↔
        (p = .tmrData ∧ s.datSlot = .empty) ∨ (p = .tmrCmd ∧ (s.cfg.tCmd = none ∨ s.rspSlot = .empty)))

/-- R40, R147, R152: whatever is due, a step answers a next state. It rests on two choices of the model: a cancelled
timer's event is taken off the list of events due and an empty list leaves the state (DESIGN CHOICE, log entry 2), and
the fault is a latch under which a step leaves the block unchanged (DESIGN CHOICE, log entry 5). -/
def Obligations.EveryStepAnswersANextState : Prop :=
  ∀ s : State, ∃ t, step s = .next t

/-- R18, R152 (the spec's decision D30): on a faulted block everything but `RESET` leaves the whole state unchanged. -/
def Obligations.FaultedBlockServesOnlyReset : Prop :=
  ∀ (i : Instr) (s : State), s.fault ≠ none →
    (i ≠ .reset → exec i s = .next s) ∧ (∃ t, exec .reset s = .next t ∧ t.fault = none)

/-- R19, R20: parameters and inputs due are written by no operation, and the two logs only grow. -/
def Obligations.OperationsKeepParametersAndHistory : Prop :=
  ∀ (i : Instr) (s t : State), exec i s = .next t →
    t.cfg = s.cfg ∧ t.inbox = s.inbox ∧ s.txLog <+: t.txLog ∧ s.cplLog <+: t.cplLog

/-- R5, R13, R14, R18, R23: the invariant holds after reset. -/
def Obligations.ResetMeetsTheInvariant : Prop := State.reset.Inv

/-- R13, R14, R18, R23: the buffer stays within its capacity, a known expectation in its range and, by default, with a
pending receive, and the latch needs a finite capacity: every step keeps all of it. -/
def Obligations.StepKeepsTheInvariant : Prop :=
  ∀ s t : State, s.Inv → step s = .next t → t.Inv

/-- R19: "no transition's enabling or result depends on them": a step taken with the logs emptied is the same step. -/
def Obligations.LogsAreNeverRead : Prop :=
  ∀ s u : State, step s.withoutLogs = .next u →
    step s = .next { u with txLog := s.txLog ++ u.txLog, cplLog := s.cplLog ++ u.cplLog }

/-- R41: the block writes a frame only for a `SEND_CMD` or a `SEND_DATA`, one whole frame, the one asked for. -/
def Obligations.WireIsWrittenOnlyForTheHost : Prop :=
  ∀ s t : State, step s = .next t → t.txLog = s.txLog ∨
    ∃ r e, s.inbox.head? = some (.req r) ∧ t.txLog = s.txLog ++ [e] ∧
      ((r.op = 0b01 ∧ e.frame = encCmd r.opcode r.param) ∨ (r.op = 0b10 ∧ e.frame = encDat r.payload))

/-- R98, R101, R157, R166: a pending command ends only by `RESET`, by `CMD_TIMEOUT` where `T_CMD` is set, or by a `FEED`
that delivers the completion of a Response. -/
def Obligations.PendingCommandEndsOnlyByResponse : Prop :=
  ∀ s t : State, step s = .next t → s.rspSlot = .pending → t.rspSlot = .empty →
    s.inbox.head? = some .rst ∨
    (s.inbox.head? = some .tmrCmd ∧ s.cfg.tCmd ≠ none ∧ t.cplLog = s.cplLog ++ [.cmdTimeout]) ∨
    ∃ chunk k, s.inbox.head? = some (.rx chunk) ∧ isResponseCompletion k = true ∧
      k ∈ t.cplLog.drop s.cplLog.length

/-- R115: once a mismatch has cleared the expectation of a pending receive, only `DATA_TIMEOUT` or `RESET` ends it. -/
def Obligations.StrandedReceiveStaysStranded : Prop :=
  ∀ s t : State, s.datSlot = .pending → s.expLen = .unknown → step s = .next t →
    s.inbox.head? ≠ some .tmrData → s.inbox.head? ≠ some .rst →
    t.datSlot = .pending ∧ t.expLen = .unknown

/-- R170, R60: a head that is no known header stays for good: every event but `RESET` keeps it, nothing is extracted
and no frame settles anything. -/
def Obligations.WedgeIsPermanent : Prop :=
  ∀ s t : State, s.wedged = true → step s = .next t → s.inbox.head? ≠ some .rst →
    t.wedged = true ∧ s.buf <+: t.buf ∧
    ∀ k ∈ t.cplLog.drop s.cplLog.length, isResponseCompletion k = false ∧ isDataCompletion k = false

/-- R39: where no candidate fails its checksum, one chunk and the same bytes in two chunks end in the same state. -/
def Obligations.ChunkingIsInvisibleWithoutMismatch : Prop :=
  ∀ (a b : List Byte) (s : State), s.fault = none → s.Inv → overflows (a ++ b) s = false →
    (memAppend (a ++ b) s).extractsWithoutMismatch = true →
    exec (.feed (a ++ b)) s = serveAll [.feed a, .feed b] s

/-- R39, R176: after a mismatch the cut is seen: in one chunk the bytes behind the bad frame are lost with it, in a
chunk of their own they are taken in. -/
def Obligations.ChunkingIsObservableAfterAMismatch : Prop :=
  ∀ (d p r st c : Half) (b : List Byte) (s : State), s.fault = none → s.buf = [] →
    c ≠ sum16 (rspBody d p r st) → overflows (rspBody d p r st ++ b16 c ++ b) s = false →
    exec (.feed (rspBody d p r st ++ b16 c ++ b)) s = .next { s with expLen := .unknown } ∧
    serveAll [.feed (rspBody d p r st ++ b16 c), .feed b] s = exec (.feed b) { s with expLen := .unknown } ∧
    ∃ t, exec (.feed b) { s with expLen := .unknown } = .next t

/-- R116: a Data frame built by the block, fed in any chunks, gives its payload back. -/
def Obligations.DataRoundTrip : Prop :=
  ∀ (payload : List Byte) (chunks : List (List Byte)) (s : State),
    s.fault = none → overflows (encDat payload) s = false → s.cfg.keepLenAfterData = false → s.buf = [] →
    s.datSlot = .empty → payload.length + 6 ≤ 65535 → payload.length + 6 ≤ s.cfg.lenMax →
    chunks.flatten = encDat payload →
    serveAll (.recvData (BitVec.ofNat 16 (payload.length + 6)) :: chunks.map .feed) s
      = .next { s with expLen := .unknown, cplLog := s.cplLog ++ [.datOk payload] }

/-- R84 (e), C8: any single changed byte at offset 2 or above of a valid Response ends in the silent drop. -/
def Obligations.CorruptedResponseIsDropped : Prop :=
  ∀ (d p r st : Half) (offset : Nat) (b : Byte) (s : State),
    s.fault = none → overflows (withChecksum (rspBody d p r st)) s = false → s.buf = [] → 2 ≤ offset → offset < 12 →
    (withChecksum (rspBody d p r st))[offset]? ≠ some b →
    exec (.feed ((withChecksum (rspBody d p r st)).set offset b)) s = .next { s with expLen := .unknown }

/-- R84 (e), C8: the same of a valid Data frame of the expected length. -/
def Obligations.CorruptedDataIsDropped : Prop :=
  ∀ (d : Half) (payload : List Byte) (offset : Nat) (b : Byte) (s : State),
    s.fault = none → overflows (withChecksum (datBody d payload)) s = false → s.buf = [] → s.expLen = .known (payload.length + 6) →
    2 ≤ offset → offset < payload.length + 6 →
    (withChecksum (datBody d payload))[offset]? ≠ some b →
    exec (.feed ((withChecksum (datBody d payload)).set offset b)) s = .next { s with expLen := .unknown }

/-- C8, R60, R84 (e), R170: a changed byte at offset 0 or 1 of a valid Response or Data frame leaves the frame in the
buffer, the expectation as it is, and the framer wedged. -/
def Obligations.CorruptedHeaderWedges : Prop :=
  ∀ (f : List Byte) (offset : Nat) (b : Byte) (s : State),
    ((∃ d p r st, f = withChecksum (rspBody d p r st)) ∨ ∃ d payload, f = withChecksum (datBody d payload)) →
    s.fault = none → overflows f s = false → s.buf = [] → offset < 2 → f[offset]? ≠ some b →
    exec (.feed (f.set offset b)) s = .next { s with buf := f.set offset b } ∧
    State.wedged { s with buf := f.set offset b } = true

/-- R141 (numbering of the spec's own, D20): the code of every completion. -/
def Obligations.CompletionCodes : Prop :=
  ∀ (a b : Half) (payload : List Byte),
    [Completion.cmdOk a, .cmdNack a, .cmdBadStatus a b, .cmdTxErr, .cmdReuse, .cmdTimeout, .datOk payload,
      .datTimeout, .datReuse, .datInvalid, .sndOk, .sndTxErr, .sndInvalid, .illegalOp].map completionCode
      = List.range 14
end

