-- ==== Sys2Proof/Laws/Bytes.lean ====
section
/-! SUPPORT. Small facts about bytes, fields, checksums and frame layouts. -/

namespace Sys2Proof.Machine

@[simp] theorem b16_length (v : Half) : (b16 v).length = 2 := rfl

@[simp] theorem b32_length (v : Long) : (b32 v).length = 4 := rfl

@[simp] theorem cmdBody_length (o : Half) (p : Long) : (cmdBody o p).length = 10 := rfl

@[simp] theorem rspBody_length (d p r st : Half) : (rspBody d p r st).length = 10 := rfl

@[simp] theorem datBody_length (d : Half) (pl : List Byte) :
    (datBody d pl).length = pl.length + 4 := by
  simp [datBody]; omega

@[simp] theorem withChecksum_length (h : List Byte) : (withChecksum h).length = h.length + 2 := by
  simp [withChecksum]

/-- Two bytes and the 16-bit value they spell (R7). -/
theorem le16_pair (v : Half) :
    BitVec.ofNat 16 (v.toNat % 256 + 256 * (v.toNat / 256 % 256)) = v := by
  apply BitVec.eq_of_toNat_eq
  have := v.isLt
  simp only [BitVec.toNat_ofNat]
  omega

/-- The two bytes of a 16-bit value assembled from two bytes are those bytes. -/
theorem b16_of_bytes (a b : Byte) : b16 (BitVec.ofNat 16 (a.toNat + 256 * b.toNat)) = [a, b] := by
  have ha := a.isLt
  have hb := b.isLt
  simp only [b16, List.cons.injEq, and_true]
  constructor <;> apply BitVec.eq_of_toNat_eq <;> simp only [BitVec.toNat_ofNat] <;> omega

/-- Four bytes and the 32-bit value they spell (R7). -/
theorem le32_quad (v : Long) :
    BitVec.ofNat 32 (v.toNat % 256 + 256 * (v.toNat / 256 % 256) + 65536 * (v.toNat / 65536 % 256)
      + 16777216 * (v.toNat / 16777216 % 256)) = v := by
  apply BitVec.eq_of_toNat_eq
  have := v.isLt
  simp only [BitVec.toNat_ofNat]
  omega

theorem le16_cons (b : Byte) (l : List Byte) (i : Nat) : le16 (b :: l) (i + 1) = le16 l i := by
  simp [le16, byteAt]

/-- Reading a 16-bit field where it was written (R54). -/
theorem le16_append (pre post : List Byte) (v : Half) (i : Nat) (hi : pre.length = i) :
    le16 (pre ++ b16 v ++ post) i = v := by
  subst hi
  induction pre with
  | nil => simpa [le16, byteAt, b16] using le16_pair v
  | cons x l ih => simpa [le16_cons] using ih

@[simp] theorem byteSum_nil : byteSum [] = 0 := rfl

@[simp] theorem byteSum_cons (b : Byte) (l : List Byte) : byteSum (b :: l) = b.toNat + byteSum l := rfl

@[simp] theorem byteSum_append (a b : List Byte) : byteSum (a ++ b) = byteSum a + byteSum b := by
  induction a with
  | nil => simp
  | cons x a ih => simp [ih]; omega

/-- A frame made of a body and two checksum bytes is judged by comparing the two values (R75). -/
theorem checksumOk_body (h : List Byte) (c : Half) :
    checksumOk (h ++ b16 c) = decide (sum16 h = c) := by
  have hl : (h ++ b16 c).length - 2 = h.length := by simp
  have h1 := le16_append h [] c h.length rfl
  rw [List.append_nil] at h1
  simp [checksumOk, checksumOf, storedChecksum, h1]

@[simp] theorem checksumOk_withChecksum (h : List Byte) : checksumOk (withChecksum h) = true := by
  simp [withChecksum, checksumOk_body]

@[simp] theorem headerKind_response (d p r st : Half) (rest : List Byte) :
    headerKind (rspBody d p r st ++ rest) = some .response := by
  simp [headerKind, rspBody, byteAt, hdrRsp0, hdrRsp1]

@[simp] theorem headerKind_command (o : Half) (p : Long) (rest : List Byte) :
    headerKind (cmdBody o p ++ rest) = some .response := by
  simp [headerKind, cmdBody, byteAt, hdrRsp0, hdrRsp1]

@[simp] theorem headerKind_data (d : Half) (pl rest : List Byte) :
    headerKind (datBody d pl ++ rest) = some .data := by
  simp [headerKind, datBody, byteAt, hdrRsp0, hdrRsp1, hdrDat0, hdrDat1]

/-- A known header is two particular leading bytes (R56). -/
theorem headerKind_eq_response {f : List Byte} :
    headerKind f = some .response ↔ ∃ rest, f = 0x55#8 :: 0xAA#8 :: rest := by
  match f with
  | [] => simp [headerKind]
  | [_] => simp [headerKind]
  | a :: b :: rest =>
    simp only [headerKind, byteAt, hdrRsp0, hdrRsp1, hdrDat0, hdrDat1, List.length_cons]
    simp

/-- A known header is two particular leading bytes (R56). -/
theorem headerKind_eq_data {f : List Byte} :
    headerKind f = some .data ↔ ∃ rest, f = 0x5A#8 :: 0xA5#8 :: rest := by
  match f with
  | [] => simp [headerKind]
  | [_] => simp [headerKind]
  | a :: b :: rest =>
    simp only [headerKind, byteAt, hdrRsp0, hdrRsp1, hdrDat0, hdrDat1, List.length_cons]
    simp
    split
    · rename_i h; simp [h.1]
    · split <;> simp_all

/-- The kind depends on the first two bytes alone (R56). -/
theorem headerKind_append {f : List Byte} (g : List Byte) (h : 2 ≤ f.length) :
    headerKind (f ++ g) = headerKind f := by
  match f, h with
  | a :: b :: rest, _ => simp [headerKind, byteAt]

theorem headerKind_none_of_short {f : List Byte} (h : f.length < 2) : headerKind f = none := by
  simp [headerKind, h]

/-- The fields of a Response candidate are the ones it was built from (R52, R54). -/
theorem responsePacket_body (d p r st c : Half) :
    responsePacket (rspBody d p r st ++ b16 c) = ⟨d, p, r, st, c⟩ := by
  simp [responsePacket, rspBody, le16, byteAt, b16]
  simp only [le16_pair, and_self]

/-- The fields of a Data candidate are the ones it was built from (R53, R54). -/
theorem dataPacket_body (d : Half) (pl : List Byte) (c : Half) :
    dataPacket (datBody d pl ++ b16 c) = ⟨d, pl, c⟩ := by
  have hl : (datBody d pl ++ b16 c).length - 2 = (datBody d pl).length := by simp
  have hs : storedChecksum (datBody d pl ++ b16 c) = c := by
    have := le16_append (datBody d pl) [] c _ rfl
    rwa [List.append_nil, ← hl] at this
  have h2 : le16 (datBody d pl ++ b16 c) 2 = d := by
    simp [datBody, le16, byteAt, b16]
    exact le16_pair d
  have hp : slice (datBody d pl ++ b16 c) 4 ((datBody d pl ++ b16 c).length - 2) = pl := by
    rw [slice, hl, List.take_left]
    simp [datBody, b16]
  rw [dataPacket, hs, h2, hp]

/-- Every 12-byte Response candidate is a body and a checksum (R52). -/
theorem response_shape {f : List Byte} (hk : headerKind f = some .response) (hl : f.length = 12) :
    ∃ d p r st c, f = rspBody d p r st ++ b16 c := by
  obtain ⟨rest, rfl⟩ := headerKind_eq_response.mp hk
  match rest, hl with
  | [a, b, c, d, e, g, h, i, j, k], _ =>
    refine ⟨BitVec.ofNat 16 (a.toNat + 256 * b.toNat), BitVec.ofNat 16 (c.toNat + 256 * d.toNat),
      BitVec.ofNat 16 (e.toNat + 256 * g.toNat), BitVec.ofNat 16 (h.toNat + 256 * i.toNat),
      BitVec.ofNat 16 (j.toNat + 256 * k.toNat), ?_⟩
    simp [rspBody, b16_of_bytes, hdrRsp0, hdrRsp1]

/-- Every Data candidate of at least six bytes is a body and a checksum (R53). -/
theorem data_shape {f : List Byte} (hk : headerKind f = some .data) (hl : 6 ≤ f.length) :
    ∃ d pl c, f = datBody d pl ++ b16 c ∧ pl.length + 6 = f.length := by
  obtain ⟨rest, rfl⟩ := headerKind_eq_data.mp hk
  match rest, hl with
  | a :: b :: tl, hl =>
    have htl : 2 ≤ tl.length := by simp at hl; omega
    obtain ⟨x, y, hxy⟩ : ∃ x y, tl.drop (tl.length - 2) = [x, y] := by
      have h2 : (tl.drop (tl.length - 2)).length = 2 := by simp; omega
      match h : tl.drop (tl.length - 2), h2 with
      | [x, y], _ => exact ⟨x, y, rfl⟩
    refine ⟨BitVec.ofNat 16 (a.toNat + 256 * b.toNat), tl.take (tl.length - 2),
      BitVec.ofNat 16 (x.toNat + 256 * y.toNat), ?_, by simp; omega⟩
    rw [datBody, b16_of_bytes, b16_of_bytes, ← hxy]
    simp [hdrDat0, hdrDat1]

end Sys2Proof.Machine
end

