-- ==== Sys2Proof/Laws/State.lean ====
section
/-! SUPPORT. One lemma per field of `State` and update operation, so that no later proof unfolds an update. -/

namespace Sys2Proof.Machine

variable (s : State)

@[simp] theorem memAppend_buf (c : List Byte) : (memAppend c s).buf = s.buf ++ c := rfl
@[simp] theorem memAppend_expLen (c : List Byte) : (memAppend c s).expLen = s.expLen := rfl
@[simp] theorem memAppend_rspSlot (c : List Byte) : (memAppend c s).rspSlot = s.rspSlot := rfl
@[simp] theorem memAppend_datSlot (c : List Byte) : (memAppend c s).datSlot = s.datSlot := rfl
@[simp] theorem memAppend_fault (c : List Byte) : (memAppend c s).fault = s.fault := rfl
@[simp] theorem memAppend_cfg (c : List Byte) : (memAppend c s).cfg = s.cfg := rfl
@[simp] theorem memAppend_inbox (c : List Byte) : (memAppend c s).inbox = s.inbox := rfl
@[simp] theorem memAppend_txAnswers (c : List Byte) : (memAppend c s).txAnswers = s.txAnswers := rfl
@[simp] theorem memAppend_txCount (c : List Byte) : (memAppend c s).txCount = s.txCount := rfl
@[simp] theorem memAppend_txLog (c : List Byte) : (memAppend c s).txLog = s.txLog := rfl
@[simp] theorem memAppend_cplLog (c : List Byte) : (memAppend c s).cplLog = s.cplLog := rfl

@[simp] theorem memDrop_buf (n : Nat) : (memDrop n s).buf = s.buf.drop n := rfl
@[simp] theorem memDrop_expLen (n : Nat) : (memDrop n s).expLen = s.expLen := rfl
@[simp] theorem memDrop_rspSlot (n : Nat) : (memDrop n s).rspSlot = s.rspSlot := rfl
@[simp] theorem memDrop_datSlot (n : Nat) : (memDrop n s).datSlot = s.datSlot := rfl
@[simp] theorem memDrop_fault (n : Nat) : (memDrop n s).fault = s.fault := rfl
@[simp] theorem memDrop_cfg (n : Nat) : (memDrop n s).cfg = s.cfg := rfl
@[simp] theorem memDrop_inbox (n : Nat) : (memDrop n s).inbox = s.inbox := rfl
@[simp] theorem memDrop_txAnswers (n : Nat) : (memDrop n s).txAnswers = s.txAnswers := rfl
@[simp] theorem memDrop_txCount (n : Nat) : (memDrop n s).txCount = s.txCount := rfl
@[simp] theorem memDrop_txLog (n : Nat) : (memDrop n s).txLog = s.txLog := rfl
@[simp] theorem memDrop_cplLog (n : Nat) : (memDrop n s).cplLog = s.cplLog := rfl

@[simp] theorem memClear_buf : (memClear s).buf = [] := rfl
@[simp] theorem memClear_expLen : (memClear s).expLen = s.expLen := rfl
@[simp] theorem memClear_rspSlot : (memClear s).rspSlot = s.rspSlot := rfl
@[simp] theorem memClear_datSlot : (memClear s).datSlot = s.datSlot := rfl
@[simp] theorem memClear_fault : (memClear s).fault = s.fault := rfl
@[simp] theorem memClear_cfg : (memClear s).cfg = s.cfg := rfl
@[simp] theorem memClear_inbox : (memClear s).inbox = s.inbox := rfl
@[simp] theorem memClear_txAnswers : (memClear s).txAnswers = s.txAnswers := rfl
@[simp] theorem memClear_txCount : (memClear s).txCount = s.txCount := rfl
@[simp] theorem memClear_txLog : (memClear s).txLog = s.txLog := rfl
@[simp] theorem memClear_cplLog : (memClear s).cplLog = s.cplLog := rfl

@[simp] theorem expectLen_buf (n : Nat) : (expectLen n s).buf = s.buf := rfl
@[simp] theorem expectLen_expLen (n : Nat) : (expectLen n s).expLen = .known n := rfl
@[simp] theorem expectLen_rspSlot (n : Nat) : (expectLen n s).rspSlot = s.rspSlot := rfl
@[simp] theorem expectLen_datSlot (n : Nat) : (expectLen n s).datSlot = s.datSlot := rfl
@[simp] theorem expectLen_fault (n : Nat) : (expectLen n s).fault = s.fault := rfl
@[simp] theorem expectLen_cfg (n : Nat) : (expectLen n s).cfg = s.cfg := rfl
@[simp] theorem expectLen_inbox (n : Nat) : (expectLen n s).inbox = s.inbox := rfl
@[simp] theorem expectLen_txAnswers (n : Nat) : (expectLen n s).txAnswers = s.txAnswers := rfl
@[simp] theorem expectLen_txCount (n : Nat) : (expectLen n s).txCount = s.txCount := rfl
@[simp] theorem expectLen_txLog (n : Nat) : (expectLen n s).txLog = s.txLog := rfl
@[simp] theorem expectLen_cplLog (n : Nat) : (expectLen n s).cplLog = s.cplLog := rfl

@[simp] theorem unexpectLen_buf : (unexpectLen s).buf = s.buf := rfl
@[simp] theorem unexpectLen_expLen : (unexpectLen s).expLen = .unknown := rfl
@[simp] theorem unexpectLen_rspSlot : (unexpectLen s).rspSlot = s.rspSlot := rfl
@[simp] theorem unexpectLen_datSlot : (unexpectLen s).datSlot = s.datSlot := rfl
@[simp] theorem unexpectLen_fault : (unexpectLen s).fault = s.fault := rfl
@[simp] theorem unexpectLen_cfg : (unexpectLen s).cfg = s.cfg := rfl
@[simp] theorem unexpectLen_inbox : (unexpectLen s).inbox = s.inbox := rfl
@[simp] theorem unexpectLen_txAnswers : (unexpectLen s).txAnswers = s.txAnswers := rfl
@[simp] theorem unexpectLen_txCount : (unexpectLen s).txCount = s.txCount := rfl
@[simp] theorem unexpectLen_txLog : (unexpectLen s).txLog = s.txLog := rfl
@[simp] theorem unexpectLen_cplLog : (unexpectLen s).cplLog = s.cplLog := rfl

@[simp] theorem setRspSlot_buf (v : Slot) : (setRspSlot v s).buf = s.buf := rfl
@[simp] theorem setRspSlot_expLen (v : Slot) : (setRspSlot v s).expLen = s.expLen := rfl
@[simp] theorem setRspSlot_rspSlot (v : Slot) : (setRspSlot v s).rspSlot = v := rfl
@[simp] theorem setRspSlot_datSlot (v : Slot) : (setRspSlot v s).datSlot = s.datSlot := rfl
@[simp] theorem setRspSlot_fault (v : Slot) : (setRspSlot v s).fault = s.fault := rfl
@[simp] theorem setRspSlot_cfg (v : Slot) : (setRspSlot v s).cfg = s.cfg := rfl
@[simp] theorem setRspSlot_inbox (v : Slot) : (setRspSlot v s).inbox = s.inbox := rfl
@[simp] theorem setRspSlot_txAnswers (v : Slot) : (setRspSlot v s).txAnswers = s.txAnswers := rfl
@[simp] theorem setRspSlot_txCount (v : Slot) : (setRspSlot v s).txCount = s.txCount := rfl
@[simp] theorem setRspSlot_txLog (v : Slot) : (setRspSlot v s).txLog = s.txLog := rfl
@[simp] theorem setRspSlot_cplLog (v : Slot) : (setRspSlot v s).cplLog = s.cplLog := rfl

@[simp] theorem setDatSlot_buf (v : Slot) : (setDatSlot v s).buf = s.buf := rfl
@[simp] theorem setDatSlot_expLen (v : Slot) : (setDatSlot v s).expLen = s.expLen := rfl
@[simp] theorem setDatSlot_rspSlot (v : Slot) : (setDatSlot v s).rspSlot = s.rspSlot := rfl
@[simp] theorem setDatSlot_datSlot (v : Slot) : (setDatSlot v s).datSlot = v := rfl
@[simp] theorem setDatSlot_fault (v : Slot) : (setDatSlot v s).fault = s.fault := rfl
@[simp] theorem setDatSlot_cfg (v : Slot) : (setDatSlot v s).cfg = s.cfg := rfl
@[simp] theorem setDatSlot_inbox (v : Slot) : (setDatSlot v s).inbox = s.inbox := rfl
@[simp] theorem setDatSlot_txAnswers (v : Slot) : (setDatSlot v s).txAnswers = s.txAnswers := rfl
@[simp] theorem setDatSlot_txCount (v : Slot) : (setDatSlot v s).txCount = s.txCount := rfl
@[simp] theorem setDatSlot_txLog (v : Slot) : (setDatSlot v s).txLog = s.txLog := rfl
@[simp] theorem setDatSlot_cplLog (v : Slot) : (setDatSlot v s).cplLog = s.cplLog := rfl

@[simp] theorem complete_buf (c : Completion) : (complete c s).buf = s.buf := rfl
@[simp] theorem complete_expLen (c : Completion) : (complete c s).expLen = s.expLen := rfl
@[simp] theorem complete_rspSlot (c : Completion) : (complete c s).rspSlot = s.rspSlot := rfl
@[simp] theorem complete_datSlot (c : Completion) : (complete c s).datSlot = s.datSlot := rfl
@[simp] theorem complete_fault (c : Completion) : (complete c s).fault = s.fault := rfl
@[simp] theorem complete_cfg (c : Completion) : (complete c s).cfg = s.cfg := rfl
@[simp] theorem complete_inbox (c : Completion) : (complete c s).inbox = s.inbox := rfl
@[simp] theorem complete_txAnswers (c : Completion) : (complete c s).txAnswers = s.txAnswers := rfl
@[simp] theorem complete_txCount (c : Completion) : (complete c s).txCount = s.txCount := rfl
@[simp] theorem complete_txLog (c : Completion) : (complete c s).txLog = s.txLog := rfl
@[simp] theorem complete_cplLog (c : Completion) : (complete c s).cplLog = s.cplLog ++ [c] := rfl

@[simp] theorem txWrite_buf (f : List Byte) : (txWrite f s).buf = s.buf := rfl
@[simp] theorem txWrite_expLen (f : List Byte) : (txWrite f s).expLen = s.expLen := rfl
@[simp] theorem txWrite_rspSlot (f : List Byte) : (txWrite f s).rspSlot = s.rspSlot := rfl
@[simp] theorem txWrite_datSlot (f : List Byte) : (txWrite f s).datSlot = s.datSlot := rfl
@[simp] theorem txWrite_fault (f : List Byte) : (txWrite f s).fault = s.fault := rfl
@[simp] theorem txWrite_cfg (f : List Byte) : (txWrite f s).cfg = s.cfg := rfl
@[simp] theorem txWrite_inbox (f : List Byte) : (txWrite f s).inbox = s.inbox := rfl
@[simp] theorem txWrite_txAnswers (f : List Byte) : (txWrite f s).txAnswers = s.txAnswers.tail := rfl
@[simp] theorem txWrite_txCount (f : List Byte) : (txWrite f s).txCount = s.txCount + 1 := rfl
@[simp] theorem txWrite_txLog (f : List Byte) : (txWrite f s).txLog = s.txLog ++ [⟨f, txAnswer s⟩] := rfl
@[simp] theorem txWrite_cplLog (f : List Byte) : (txWrite f s).cplLog = s.cplLog := rfl

@[simp] theorem raiseFault_buf (k : Fault) : (raiseFault k s).buf = s.buf := rfl
@[simp] theorem raiseFault_expLen (k : Fault) : (raiseFault k s).expLen = s.expLen := rfl
@[simp] theorem raiseFault_rspSlot (k : Fault) : (raiseFault k s).rspSlot = s.rspSlot := rfl
@[simp] theorem raiseFault_datSlot (k : Fault) : (raiseFault k s).datSlot = s.datSlot := rfl
@[simp] theorem raiseFault_fault (k : Fault) : (raiseFault k s).fault = some k := rfl
@[simp] theorem raiseFault_cfg (k : Fault) : (raiseFault k s).cfg = s.cfg := rfl
@[simp] theorem raiseFault_inbox (k : Fault) : (raiseFault k s).inbox = s.inbox := rfl
@[simp] theorem raiseFault_txAnswers (k : Fault) : (raiseFault k s).txAnswers = s.txAnswers := rfl
@[simp] theorem raiseFault_txCount (k : Fault) : (raiseFault k s).txCount = s.txCount := rfl
@[simp] theorem raiseFault_txLog (k : Fault) : (raiseFault k s).txLog = s.txLog := rfl
@[simp] theorem raiseFault_cplLog (k : Fault) : (raiseFault k s).cplLog = s.cplLog := rfl

@[simp] theorem resetBlock_buf : (resetBlock s).buf = [] := rfl
@[simp] theorem resetBlock_expLen : (resetBlock s).expLen = .unknown := rfl
@[simp] theorem resetBlock_rspSlot : (resetBlock s).rspSlot = .empty := rfl
@[simp] theorem resetBlock_datSlot : (resetBlock s).datSlot = .empty := rfl
@[simp] theorem resetBlock_fault : (resetBlock s).fault = none := rfl
@[simp] theorem resetBlock_cfg : (resetBlock s).cfg = s.cfg := rfl
@[simp] theorem resetBlock_inbox : (resetBlock s).inbox = s.inbox := rfl
@[simp] theorem resetBlock_txAnswers : (resetBlock s).txAnswers = s.txAnswers := rfl
@[simp] theorem resetBlock_txCount : (resetBlock s).txCount = s.txCount := rfl
@[simp] theorem resetBlock_txLog : (resetBlock s).txLog = s.txLog := rfl
@[simp] theorem resetBlock_cplLog : (resetBlock s).cplLog = s.cplLog := rfl

@[simp] theorem dropAll_buf : (dropAll s).buf = [] := rfl
@[simp] theorem dropAll_expLen : (dropAll s).expLen = .unknown := rfl
@[simp] theorem dropAll_rspSlot : (dropAll s).rspSlot = s.rspSlot := rfl
@[simp] theorem dropAll_datSlot : (dropAll s).datSlot = s.datSlot := rfl
@[simp] theorem dropAll_fault : (dropAll s).fault = s.fault := rfl
@[simp] theorem dropAll_cfg : (dropAll s).cfg = s.cfg := rfl
@[simp] theorem dropAll_inbox : (dropAll s).inbox = s.inbox := rfl
@[simp] theorem dropAll_txAnswers : (dropAll s).txAnswers = s.txAnswers := rfl
@[simp] theorem dropAll_txCount : (dropAll s).txCount = s.txCount := rfl
@[simp] theorem dropAll_txLog : (dropAll s).txLog = s.txLog := rfl
@[simp] theorem dropAll_cplLog : (dropAll s).cplLog = s.cplLog := rfl

end Sys2Proof.Machine
end

