-- ==== Sys2Proof/Laws/Ops.lean ====
section
/-! SUPPORT. What each shared operation can do, said once: the gate on a faulted block, the two resolutions, the verdict
on a candidate and one pass of the extraction loop; and that the operations keep the memory's form. -/

namespace Sys2Proof.Machine

theorem served_of_noFault (f : State → State) {s : State} (h : s.fault = none) :
    served f s = .next (f s) := by simp [served, h]

theorem served_of_fault (f : State → State) {s : State} (h : s.fault ≠ none) :
    served f s = .next s := by simp [served, h]

theorem slot_empty_or_pending (v : Slot) : v = .empty ∨ v = .pending := by cases v <;> simp

/-- Everything `settleCmd` can do (R83, R94 to R96). -/
theorem settleCmd_cases (c : Completion) (s : State) :
    (s.rspSlot = .pending ∧ settleCmd c s = complete c (setRspSlot .empty s)) ∨
    (s.rspSlot = .empty ∧ settleCmd c s = s) := by
  rcases slot_empty_or_pending s.rspSlot with h | h <;> simp [settleCmd, h]

/-- Everything `settleDat` can do (R83, R110). -/
theorem settleDat_cases (c : Completion) (s : State) :
    (s.datSlot = .pending ∧ settleDat c s = complete c (setDatSlot .empty s)) ∨
    (s.datSlot = .empty ∧ settleDat c s = s) := by
  rcases slot_empty_or_pending s.datSlot with h | h <;> simp [settleDat, h]

/-- A Response is resolved with one of the three completions of a Response (R94 to R96). -/
theorem emitRsp_settles (p : ResponsePacket) (s : State) :
    ∃ c, isResponseCompletion c = true ∧ emitRsp p s = settleCmd c s := by
  by_cases h0 : p.status = ackWord
  · exact ⟨.cmdOk p.param, rfl, by simp [emitRsp, h0]⟩
  · by_cases h1 : p.status = nackWord
    · exact ⟨.cmdNack p.param, rfl, by simp [emitRsp, h1, ackWord, nackWord]⟩
    · exact ⟨.cmdBadStatus p.status p.param, rfl, by simp [emitRsp, h0, h1]⟩

/-- Everything a pass of the extraction loop can do (R71 to R78). -/
theorem extractPass_cases (s : State) :
    extractPass s = .wait ∨
    ∃ kind need, classify s = some (kind, need) ∧ need ≤ s.buf.length ∧
      extractPass s = judge kind (s.buf.take need) (memDrop need s) := by
  match h : classify s with
  | none => exact .inl (by simp [extractPass, h])
  | some (kind, need) =>
    by_cases hl : s.buf.length < need
    · exact .inl (by simp [extractPass, h, hl])
    · exact .inr ⟨kind, need, rfl, by omega, by simp [extractPass, h, hl, memRead]⟩

/-- Everything the verdict on a candidate can be (R75 to R78). -/
theorem judge_cases (kind : FrameKind) (cand : List Byte) (s : State) :
    (checksumOk cand = true ∧ kind = .response ∧
      judge kind cand s = .accepted (acceptResponse (responsePacket cand) s)) ∨
    (checksumOk cand = true ∧ kind = .data ∧
      judge kind cand s = .accepted (acceptData (dataPacket cand) s)) ∨
    (checksumOk cand = false ∧ judge kind cand s = .dropped (dropAll s)) := by
  cases kind <;> cases h : checksumOk cand <;> simp [judge, h]

/-- What holds of a state, and is kept by a pass that accepts and by one that drops, holds after extraction. -/
theorem extractLoop_induction {P : State → Prop}
    (hacc : ∀ s t, P s → extractPass s = .accepted t → P t)
    (hdrop : ∀ s t, P s → extractPass s = .dropped t → P t) :
    ∀ (fuel : Nat) (s : State), P s → P (extractLoop fuel s)
  | 0, _, h => h
  | fuel + 1, s, h => by
    rw [extractLoop]
    match hp : extractPass s with
    | .wait => exact h
    | .accepted t => exact extractLoop_induction hacc hdrop fuel t (hacc s t h hp)
    | .dropped t => exact hdrop s t h hp

/-! ### The fields no resolution writes -/

theorem settleCmd_frame (c : Completion) (s : State) :
    (settleCmd c s).buf = s.buf ∧ (settleCmd c s).expLen = s.expLen ∧
    (settleCmd c s).datSlot = s.datSlot ∧ (settleCmd c s).fault = s.fault ∧
    (settleCmd c s).cfg = s.cfg ∧ (settleCmd c s).inbox = s.inbox ∧
    (settleCmd c s).txAnswers = s.txAnswers ∧ (settleCmd c s).txCount = s.txCount ∧
    (settleCmd c s).txLog = s.txLog := by
  rcases settleCmd_cases c s with ⟨_, h⟩ | ⟨_, h⟩ <;> simp [h]

theorem settleDat_frame (c : Completion) (s : State) :
    (settleDat c s).buf = s.buf ∧ (settleDat c s).expLen = s.expLen ∧
    (settleDat c s).rspSlot = s.rspSlot ∧ (settleDat c s).fault = s.fault ∧
    (settleDat c s).cfg = s.cfg ∧ (settleDat c s).inbox = s.inbox ∧
    (settleDat c s).txAnswers = s.txAnswers ∧ (settleDat c s).txCount = s.txCount ∧
    (settleDat c s).txLog = s.txLog := by
  rcases settleDat_cases c s with ⟨_, h⟩ | ⟨_, h⟩ <;> simp [h]

/-- What accepting a Response leaves alone (R77, R99). -/
theorem acceptResponse_frame (p : ResponsePacket) (s : State) :
    (acceptResponse p s).buf = s.buf ∧ (acceptResponse p s).expLen = s.expLen ∧
    (acceptResponse p s).datSlot = s.datSlot ∧ (acceptResponse p s).fault = s.fault ∧
    (acceptResponse p s).cfg = s.cfg ∧ (acceptResponse p s).inbox = s.inbox ∧
    (acceptResponse p s).txAnswers = s.txAnswers ∧ (acceptResponse p s).txCount = s.txCount ∧
    (acceptResponse p s).txLog = s.txLog := by
  obtain ⟨c, _, h⟩ := emitRsp_settles p s
  rw [acceptResponse, h]
  exact settleCmd_frame c s

/-- What accepting a Data frame leaves alone, and what becomes of the expectation (R78). -/
theorem acceptData_frame (p : DataPacket) (s : State) :
    (acceptData p s).buf = s.buf ∧
    (acceptData p s).expLen = (if s.cfg.keepLenAfterData then s.expLen else .unknown) ∧
    (acceptData p s).rspSlot = s.rspSlot ∧ (acceptData p s).fault = s.fault ∧
    (acceptData p s).cfg = s.cfg ∧ (acceptData p s).inbox = s.inbox ∧
    (acceptData p s).txAnswers = s.txAnswers ∧ (acceptData p s).txCount = s.txCount ∧
    (acceptData p s).txLog = s.txLog := by
  have h := settleDat_frame (.datOk p.payload) (if s.cfg.keepLenAfterData then s else unexpectLen s)
  simp only [acceptData, emitDat]
  split at h <;> simp_all

/-- What a resolution does to the completions: it delivers at most one (R83, R94 to R96, R110). -/
theorem settleCmd_delivers (c : Completion) (s : State) : s.cplLog <+: (settleCmd c s).cplLog := by
  rcases settleCmd_cases c s with ⟨_, h⟩ | ⟨_, h⟩ <;> simp [h]

theorem settleDat_delivers (c : Completion) (s : State) : s.cplLog <+: (settleDat c s).cplLog := by
  rcases settleDat_cases c s with ⟨_, h⟩ | ⟨_, h⟩ <;> simp [h]

/-- What `EXTRACT` leaves alone: it shortens the buffer, adds completions, and writes no parameter, input, write log or
fault latch (R71, R99, R150). -/
theorem extract_frame (s : State) :
    (extract s).buf.length ≤ s.buf.length ∧ s.cplLog <+: (extract s).cplLog ∧
    (extract s).fault = s.fault ∧ (extract s).cfg = s.cfg ∧ (extract s).inbox = s.inbox ∧
    (extract s).txAnswers = s.txAnswers ∧ (extract s).txCount = s.txCount ∧ (extract s).txLog = s.txLog := by
  refine extractLoop_induction (P := fun t => t.buf.length ≤ s.buf.length ∧ s.cplLog <+: t.cplLog ∧
    t.fault = s.fault ∧ t.cfg = s.cfg ∧ t.inbox = s.inbox ∧ t.txAnswers = s.txAnswers ∧ t.txCount = s.txCount ∧
    t.txLog = s.txLog) ?_ ?_ s.buf.length s ⟨Nat.le_refl _, List.prefix_refl _, rfl, rfl, rfl, rfl, rfl, rfl⟩
  · intro a b ⟨hl, hp, hs⟩ hb
    rcases extractPass_cases a with hw | ⟨kind, need, _, _, hj⟩
    · simp [hw] at hb
    · rw [hj] at hb
      have hr := acceptResponse_frame (responsePacket (a.buf.take need)) (memDrop need a)
      have hd := acceptData_frame (dataPacket (a.buf.take need)) (memDrop need a)
      rcases judge_cases kind (a.buf.take need) (memDrop need a) with ⟨_, _, e⟩ | ⟨_, _, e⟩ | ⟨_, e⟩ <;>
        rw [e] at hb <;> cases hb
      · refine ⟨by simp [hr]; omega, hp.trans ?_, by simpa [hr] using hs⟩
        obtain ⟨c, _, h⟩ := emitRsp_settles (responsePacket (a.buf.take need)) (memDrop need a)
        rw [acceptResponse, h]
        exact settleCmd_delivers c (memDrop need a)
      · refine ⟨by simp [hd]; omega, hp.trans ?_, by simpa [hd] using hs⟩
        unfold acceptData emitDat
        split
        · exact settleDat_delivers _ (memDrop need a)
        · exact settleDat_delivers _ (unexpectLen (memDrop need a))
  · intro a b ⟨hl, hp, hs⟩ hb
    rcases extractPass_cases a with hw | ⟨kind, need, _, _, hj⟩
    · simp [hw] at hb
    · rw [hj] at hb
      rcases judge_cases kind (a.buf.take need) (memDrop need a) with ⟨_, _, e⟩ | ⟨_, _, e⟩ | ⟨_, e⟩ <;>
        rw [e] at hb <;> cases hb
      exact ⟨by simp, hp, hs⟩

/-! ### The memory's form -/

theorem memory_wf_of_le {s t : State} (hc : t.cfg = s.cfg) (hl : t.buf.length ≤ s.buf.length)
    (h : Memory.wf s = true) : Memory.wf t = true := by
  unfold Memory.wf at *
  rw [hc]
  split at h <;> simp_all
  omega

theorem memDrop_wf (n : Nat) {s : State} (h : Memory.wf s = true) : Memory.wf (memDrop n s) = true :=
  memory_wf_of_le (by simp) (by simp) h

theorem memClear_wf {s : State} (h : Memory.wf s = true) : Memory.wf (memClear s) = true :=
  memory_wf_of_le (by simp) (by simp) h

/-- The append keeps the form where the capacity test lets it through (R85). -/
theorem memAppend_wf (c : List Byte) {s : State} (h : overflows c s = false) :
    Memory.wf (memAppend c s) = true := by
  unfold overflows at h
  unfold Memory.wf
  simp only [memAppend_cfg, memAppend_buf, List.length_append]
  split <;> simp_all

theorem extract_wf {s : State} (h : Memory.wf s = true) : Memory.wf (extract s) = true :=
  memory_wf_of_le (extract_frame s).2.2.2.1 (extract_frame s).1 h

theorem feed_wf (c : List Byte) {s : State} (h : Memory.wf s = true) : Memory.wf (feed c s) = true := by
  unfold feed
  cases ho : overflows c s
  · simpa using extract_wf (memAppend_wf c ho)
  · simpa using memory_wf_of_le (s := s) (by simp) (by simp) h

theorem reset_memory_wf : Memory.wf State.reset = true := by decide

end Sys2Proof.Machine
end

