-- ==== Sys2Proof/Laws/Extract.lean ====
section
/-! SUPPORT. The extraction loop under an expectation in range: a pass that goes on shortens the buffer by at least six
bytes (R86), so the loop is its own fixed point and can be cited one pass at a time. -/

namespace Sys2Proof.Machine

/-- A frame at the head needs at least `LEN_MIN` bytes (R84, R86). -/
theorem classify_need {s : State} {kind : FrameKind} {need : Nat} (hr : s.expLenInRange = true)
    (h : classify s = some (kind, need)) : 6 ≤ need := by
  unfold classify at h
  split at h
  · cases h
  · cases h; decide
  · split at h
    · cases h
    · rename_i n hn
      cases h
      simp only [State.expLenInRange, hn, Bool.and_eq_true, decide_eq_true_eq] at hr
      exact hr.1

/-- What a pass that goes on does to the buffer and the expectation (R86). -/
theorem accepted_shrinks {s t : State} (hr : s.expLenInRange = true) (h : extractPass s = .accepted t) :
    t.buf.length + 6 ≤ s.buf.length ∧ t.expLenInRange = true := by
  rcases extractPass_cases s with hw | ⟨kind, need, hc, hl, hj⟩
  · simp [hw] at h
  · have h6 := classify_need hr hc
    rw [hj] at h
    have ha := acceptResponse_frame (responsePacket (s.buf.take need)) (memDrop need s)
    have hd := acceptData_frame (dataPacket (s.buf.take need)) (memDrop need s)
    rcases judge_cases kind (s.buf.take need) (memDrop need s) with ⟨_, _, e⟩ | ⟨_, _, e⟩ | ⟨_, e⟩ <;>
      rw [e] at h <;> cases h
    · refine ⟨by simp [ha]; omega, ?_⟩
      simpa [State.expLenInRange, ha] using hr
    · refine ⟨by simp [hd]; omega, ?_⟩
      unfold State.expLenInRange at hr ⊢
      simp only [hd, memDrop_cfg, memDrop_expLen]
      by_cases hk : s.cfg.keepLenAfterData = true
      · simpa only [hk, if_true] using hr
      · simp [hk]

/-- More fuel than bytes changes nothing. -/
theorem extractLoop_of_fuel : ∀ (fuel : Nat) (s : State), s.expLenInRange = true →
    s.buf.length ≤ fuel → extractLoop fuel s = extract s := by
  have key : ∀ (n m : Nat) (s : State), s.expLenInRange = true → s.buf.length ≤ n →
      s.buf.length ≤ m → extractLoop n s = extractLoop m s := by
    intro n
    induction n with
    | zero =>
      intro m s _ hn _
      cases m with
      | zero => rfl
      | succ m =>
        have hb : s.buf = [] := List.length_eq_zero_iff.mp (by omega)
        have : extractPass s = .wait := by simp [extractPass, classify, headerKind, hb]
        simp [extractLoop, this]
    | succ n ih =>
      intro m s hr hn hm
      cases m with
      | zero =>
        have hb : s.buf = [] := List.length_eq_zero_iff.mp (by omega)
        have : extractPass s = .wait := by simp [extractPass, classify, headerKind, hb]
        simp [extractLoop, this]
      | succ m =>
        simp only [extractLoop]
        match hp : extractPass s with
        | .wait => rfl
        | .dropped t => rfl
        | .accepted t =>
          have := accepted_shrinks hr hp
          exact ih m t this.2 (by omega) (by omega)
  intro fuel s hr hf
  exact key fuel s.buf.length s hr hf (Nat.le_refl _)

theorem extract_of_wait {s : State} (h : extractPass s = .wait) : extract s = s := by
  unfold extract
  cases s.buf.length <;> simp [extractLoop, h]

theorem extract_of_dropped {s t : State} (h : extractPass s = .dropped t) : extract s = t := by
  unfold extract
  match hl : s.buf.length with
  | 0 =>
    have hb : s.buf = [] := List.length_eq_zero_iff.mp hl
    simp [extractPass, classify, headerKind, hb] at h
  | n + 1 => simp [extractLoop, h]

/-- Extraction after an accepted frame is extraction from the state the acceptance left (R71, R82). -/
theorem extract_of_accepted {s t : State} (hr : s.expLenInRange = true)
    (h : extractPass s = .accepted t) : extract s = extract t := by
  have hs := accepted_shrinks hr h
  match hl : s.buf.length with
  | 0 => omega
  | n + 1 =>
    have : extract s = extractLoop n t := by simp [extract, hl, extractLoop, h]
    rw [this, extractLoop_of_fuel n t hs.2 (by omega)]

/-- The pass on a complete Response at the head (R72 to R77). -/
theorem extractPass_response {s : State} {d p r st c : Half} {rest : List Byte}
    (h : s.buf = rspBody d p r st ++ b16 c ++ rest) :
    extractPass s = if c = sum16 (rspBody d p r st)
      then .accepted (acceptResponse ⟨d, p, r, st, c⟩ { s with buf := rest })
      else .dropped { s with buf := [], expLen := .unknown } := by
  have hk : classify s = some (.response, 12) := by
    simp [classify, h, List.append_assoc, rspLen]
  have ht : memRead 0 12 s = rspBody d p r st ++ b16 c := by
    rw [memRead, h, List.drop_zero]
    exact List.take_left' (by simp)
  have hd : memDrop 12 s = { s with buf := rest } := by
    have : s.buf.drop 12 = rest := by rw [h]; exact List.drop_left' (by simp)
    simp [memDrop, this]
  have hl : ¬ s.buf.length < 12 := by simp [h]; omega
  simp only [extractPass, hk, hl, if_false, ht, hd, judge, checksumOk_body, responsePacket_body,
    decide_eq_true_eq]
  by_cases hc : c = sum16 (rspBody d p r st)
  · simp [hc]
  · simp [hc, Ne.symm hc, dropAll, unexpectLen, memClear]

/-- The pass on a complete Data frame at the head, its length expected (R72 to R78). -/
theorem extractPass_data {s : State} {d c : Half} {pl rest : List Byte}
    (h : s.buf = datBody d pl ++ b16 c ++ rest) (he : s.expLen = .known (pl.length + 6)) :
    extractPass s = if c = sum16 (datBody d pl)
      then .accepted (acceptData ⟨d, pl, c⟩ { s with buf := rest })
      else .dropped { s with buf := [], expLen := .unknown } := by
  have hk : classify s = some (.data, pl.length + 6) := by
    simp [classify, h, List.append_assoc, he]
  have ht : memRead 0 (pl.length + 6) s = datBody d pl ++ b16 c := by
    rw [memRead, h, List.drop_zero]
    exact List.take_left' (by simp)
  have hd : memDrop (pl.length + 6) s = { s with buf := rest } := by
    have : s.buf.drop (pl.length + 6) = rest := by rw [h]; exact List.drop_left' (by simp)
    simp [memDrop, this]
  have hl : ¬ s.buf.length < pl.length + 6 := by simp [h]; omega
  simp only [extractPass, hk, hl, if_false, ht, hd, judge, checksumOk_body, dataPacket_body,
    decide_eq_true_eq]
  by_cases hc : c = sum16 (datBody d pl)
  · simp [hc]
  · simp [hc, Ne.symm hc, dropAll, unexpectLen, memClear]

end Sys2Proof.Machine
end

