-- ==== Sys2Proof/Laws/PerInstr.lean ====
section
/-! SUPPORT. One lemma per constructor of `Instr`: the length of the frame an instruction is encoded as. -/

namespace Sys2Proof.Laws.FrameLength

open Sys2Proof Sys2Proof.Machine

/-- The frame on the wire `w`, if it is one. -/
def frameOf : Wire → Option (List Byte)
  | .input _ => none
  | .rxFrame f => some f
  | .txFrame f => some f

/-- The length R51 to R53 give the row's frame; the other rows have none. -/
def lengthOf : Instr → Option Nat
  | .cmd _ _ => some 12
  | .rspAck _ _ _ => some 12
  | .rspNack _ _ _ => some 12
  | .rspOther _ _ _ _ => some 12
  | .rspBadsum _ _ _ _ _ => some 12
  | .dat _ payload _ => some (payload.length + 6)
  | .sendCmd _ _ => none
  | .sendData _ => none
  | .recvData _ => none
  | .reqReserved => none
  | .feed _ => none
  | .dataTimeout => none
  | .cmdTimeout => none
  | .reset => none
  | .extract => none
  | .expect _ => none
  | .unexpect => none
  | .txWrite _ => none

/-- A frame the instruction is encoded as has the length of its format (R51, R52, R53). -/
def Statement (i : Instr) : Prop := ((encode i).bind frameOf).map List.length = lengthOf i

theorem cmd (opcode : Half) (param : Long) : Statement (.cmd opcode param) := rfl

theorem rspAck (devId : Half) (param : Half) (reserved : Half) : Statement (.rspAck devId param reserved) := rfl

theorem rspNack (devId : Half) (param : Half) (reserved : Half) : Statement (.rspNack devId param reserved) := rfl

theorem rspOther (devId : Half) (param : Half) (reserved : Half) (status : Half) : Statement (.rspOther devId param reserved status) := rfl

theorem rspBadsum (devId : Half) (param : Half) (reserved : Half) (status : Half) (checksum : Half) : Statement (.rspBadsum devId param reserved status checksum) := rfl

theorem dat (devId : Half) (payload : List Byte) (checksum : Half) : Statement (.dat devId payload checksum) := by
  simp [Statement, encode, frameOf, lengthOf]

theorem sendCmd (opcode : Half) (param : Long) : Statement (.sendCmd opcode param) := rfl

theorem sendData (payload : List Byte) : Statement (.sendData payload) := rfl

theorem recvData (n : Half) : Statement (.recvData n) := rfl

theorem reqReserved : Statement (.reqReserved) := rfl

theorem feed (chunk : List Byte) : Statement (.feed chunk) := rfl

theorem dataTimeout : Statement (.dataTimeout) := rfl

theorem cmdTimeout : Statement (.cmdTimeout) := rfl

theorem reset : Statement (.reset) := rfl

theorem extract : Statement (.extract) := rfl

theorem expect (n : Half) : Statement (.expect n) := rfl

theorem unexpect : Statement (.unexpect) := rfl

theorem txWrite (frame : List Byte) : Statement (.txWrite frame) := rfl

end Sys2Proof.Laws.FrameLength
end

