-- ==== Sys2Proof/Tests/Slice0.lean ====
section
/-! SUPPORT. Tests: well-formedness refusals, words decoded by hand, one-step behaviours with the results that
95_test_vectors.md gives, and for every obligation with hypotheses a witness that they can be met. -/

namespace Sys2Proof.Tests

open Sys2Proof Sys2Proof.Machine

/-- The reset state with the two slots, the expectation and the buffer given. -/
def mk (rsp dat : Slot) (e : ExpLen) (buf : List Byte) : State :=
  { State.reset with rspSlot := rsp, datSlot := dat, expLen := e, buf := buf }

/-- A state whose next write is answered so. -/
def answering (a : TxResult) (s : State) : State := { s with txAnswers := [a] }

/-- A state with the buffer capacity given. -/
def capped (c : Nat) (s : State) : State := { s with cfg := { s.cfg with bufCap := some c } }

/-- A state with the greatest Data frame length given. -/
def lenMaxed (n : Nat) (s : State) : State := { s with cfg := { s.cfg with lenMax := n } }

/-- A state in which the expectation survives a valid Data frame. -/
def kept (s : State) : State := { s with cfg := { s.cfg with keepLenAfterData := true } }

/-- A state in which the command timer exists. -/
def timed (s : State) : State := { s with cfg := { s.cfg with tCmd := some 1000 } }

/-- A state with the events due given. -/
def due (l : List Input) (s : State) : State := { s with inbox := l }

/-- The state an outcome leads to. -/
def after (o : Host.Outcome State Fault Refusal) : Option State :=
  match o with
  | .next t => some t
  | .fault _ => none
  | .refused _ => none

/-- Why an outcome is a refusal. -/
def refusal (o : Host.Outcome State Fault Refusal) : Option Refusal :=
  match o with
  | .next _ => none
  | .fault _ => none
  | .refused r => some r

/-- `ACK0` of 95_test_vectors.md. -/
def ack0 : List Byte := [0x55, 0xAA, 0x01, 0x00, 0x00, 0x00, 0x00, 0x00, 0x30, 0x00, 0x30, 0x01]

/-- `ACK5`. -/
def ack5 : List Byte := [0x55, 0xAA, 0x01, 0x00, 0x05, 0x00, 0x00, 0x00, 0x30, 0x00, 0x35, 0x01]

/-- `NACKC`. -/
def nackC : List Byte := [0x55, 0xAA, 0x01, 0x00, 0x0C, 0x10, 0x00, 0x00, 0x31, 0x00, 0x4D, 0x01]

/-- `BAD0`. -/
def bad0 : List Byte := [0x55, 0xAA, 0x01, 0x00, 0x00, 0x00, 0x00, 0x00, 0x30, 0x00, 0x31, 0x01]

/-- `DAT3`. -/
def dat3 : List Byte := [0x5A, 0xA5, 0x01, 0x00, 0x01, 0x02, 0x03, 0x06, 0x01]

/-! ### Well-formedness: what each check refuses -/

theorem test_wf_other_is_not_ack : Instr.wf (.rspOther 1 0 0 0x0030) = false := by decide
theorem test_wf_other_is_not_nack : Instr.wf (.rspOther 1 0 0 0x0031) = false := by decide
theorem test_wf_badsum_is_wrong : Instr.wf (.rspBadsum 1 5 0 0x0030 0x0135) = false := by decide
theorem test_wf_expect_holds_fixed_fields : Instr.wf (.expect 5) = false := by decide
theorem test_wf_write_of_a_broken_frame : Instr.wf (.txWrite bad0) = false := by decide
theorem test_wf_write_of_a_short_frame : Instr.wf (.txWrite [0x5A, 0xA5, 0x01, 0x00, 0x01]) = false := by decide
theorem test_wf_write_of_a_foreign_device :
    Instr.wf (.txWrite [0x5A, 0xA5, 0x07, 0x00, 0x06, 0x01]) = false := by decide

/-! ### Decoding: words written out from R51 to R53, R63 and R65 -/

/-- V7. -/
theorem test_decode_cmd :
    decode (.txFrame [0x55, 0xAA, 0x01, 0x00, 0xD4, 0xC3, 0xB2, 0xA1, 0x34, 0x12, 0x30, 0x04])
      = .ok (.cmd 0x1234 0xA1B2C3D4) := by rfl
/-- V20: 16 bits of parameter, 16 bits reserved. -/
theorem test_decode_ack :
    decode (.rxFrame [0x55, 0xAA, 0x01, 0x00, 0xFE, 0xFF, 0xFF, 0xFF, 0x30, 0x00, 0x2B, 0x05])
      = .ok (.rspAck 1 0xFFFE 0xFFFF) := by rfl
/-- V16. -/
theorem test_decode_nack :
    decode (.rxFrame [0x55, 0xAA, 0x01, 0x00, 0x12, 0x10, 0x00, 0x00, 0x31, 0x00, 0x53, 0x01])
      = .ok (.rspNack 1 0x1012 0) := by rfl
/-- V17. -/
theorem test_decode_other :
    decode (.rxFrame [0x55, 0xAA, 0x01, 0x00, 0x00, 0x00, 0x00, 0x00, 0x32, 0x00, 0x32, 0x01])
      = .ok (.rspOther 1 0 0 0x0032) := by rfl
/-- V22: `ACK5` with byte 4 changed. -/
theorem test_decode_badsum :
    decode (.rxFrame [0x55, 0xAA, 0x01, 0x00, 0x04, 0x00, 0x00, 0x00, 0x30, 0x00, 0x35, 0x01])
      = .ok (.rspBadsum 1 4 0 0x0030 0x0135) := by rfl
/-- V31. -/
theorem test_decode_dat : decode (.rxFrame dat3) = .ok (.dat 1 [1, 2, 3] 0x0106) := by rfl
/-- V30 and one byte less: the shortest Data frame. -/
theorem test_decode_dat_shortest :
    decode (.txFrame [0x5A, 0xA5, 0x01, 0x00, 0x00, 0x01]) = .ok (.dat 1 [] 0x0100) ∧
    decode (.txFrame [0x5A, 0xA5, 0x01, 0x00, 0x00]) = .error .wrongLength ∧
    decode (.rxFrame [0x5A, 0xA5, 0x01, 0x00, 0x00]) = .error .wrongLength := ⟨rfl, rfl, rfl⟩
/-- R63: the select codes, as the table's two bits. -/
theorem test_decode_sendCmd : decodeTableWord 2 0b01 = some (.sendCmd 0 0) := by decide
theorem test_decode_sendData : decodeTableWord 2 0b10 = some (.sendData []) := by decide
theorem test_decode_recvData : decodeTableWord 8 0b11 = some (.recvData 0) := by decide
theorem test_decode_reserved : decodeTableWord 8 0b00 = some .reqReserved := by decide
theorem test_decode_feed : decode (.input (.rx [0x55])) = .ok (.feed [0x55]) := by rfl
theorem test_decode_dataTimeout : decode (.input .tmrData) = .ok .dataTimeout := by rfl
theorem test_decode_cmdTimeout : decode (.input .tmrCmd) = .ok .cmdTimeout := by rfl
theorem test_decode_reset : decode (.input .rst) = .ok .reset := by rfl
/-- The rows without select or frame have no encoding (R65). -/
theorem test_encode_internal :
    [encode .extract, encode (.expect 6), encode .unexpect, encode (.txWrite dat3)] = [none, none, none, none] := by
  decide
/-- V21, V28, R53: the names of what is no frame. -/
theorem test_decode_refusals :
    decode (.rxFrame [0x55]) = .error .tooShort ∧ decode (.rxFrame [0x54, 0xAA, 0x01]) = .error .unknownHeader ∧
    decode (.rxFrame (ack5 ++ [0])) = .error .wrongLength ∧ decode (.txFrame bad0) = .error .badChecksum ∧
    decode (.txFrame [0x5A, 0xA5, 0x07, 0x00, 0x06, 0x01]) = .error .foreignDevId := by
  exact ⟨rfl, rfl, rfl, rfl, rfl⟩
/-- A table word is its bytes in wire order: `ACK5` read with byte 0 lowest. -/
theorem test_table_word_ack :
    decodeTableWord 96 0x01350030000000050001AA55 = some (.rspAck 1 5 0) := by decide
/-- The word placed for the fetch is the one the next step runs: `RECV_DATA` with `n = 0` is refused (R108). -/
theorem test_fetch_word_request :
    (after (step (State.reset.withFetchWord 2 0b11))).map State.cplLog = some [.datInvalid] := by decide
/-- Likewise `DAT0`: the frame is extracted, leaving no expectation. -/
theorem test_fetch_word_data :
    (after (step (State.reset.withFetchWord 48 0x01000001A55A))).map (fun t => (t.buf, t.expLen))
      = some ([], .unknown) := by decide

/-! ### Behaviour -/

/-- V9. -/
theorem test_cmd_writes_its_frame :
    (after (exec (.cmd 0xFFFF 0xFFFFFFFF) (answering .ok State.reset))).map State.txLog = some
      [⟨[0x55, 0xAA, 0x01, 0x00, 0xFF, 0xFF, 0xFF, 0xFF, 0xFF, 0xFF, 0xFA, 0x06], .ok⟩] := by decide
/-- V14. -/
theorem test_ack_settles :
    (after (exec (.rspAck 1 5 0) (mk .pending .empty .unknown []))).map (fun t => (t.rspSlot, t.cplLog))
      = some (.empty, [.cmdOk 5]) := by decide
/-- V27. -/
theorem test_ack_unsolicited :
    (after (exec (.rspAck 1 5 0) State.reset)).map State.cplLog = some [] := by decide
/-- V15. -/
theorem test_nack_settles :
    (after (exec (.rspNack 1 0x100C 0) (mk .pending .empty .unknown []))).map State.cplLog
      = some [.cmdNack 0x100C] := by decide
/-- V56: the echo. -/
theorem test_other_settles :
    (after (exec (.rspOther 1 1 0 0x0012) (mk .pending .empty .unknown []))).map State.cplLog
      = some [.cmdBadStatus 0x0012 1] := by decide
/-- V22: both operations stay pending. -/
theorem test_badsum_drops :
    (after (exec (.rspBadsum 1 4 0 0x0030 0x0135) (mk .pending .pending (.known 30) dat3))).map
      (fun t => (t.buf, t.expLen, t.rspSlot, t.datSlot)) = some ([], .unknown, .pending, .pending) := by decide
/-- V31. -/
theorem test_dat_settles :
    (after (exec (.dat 1 [1, 2, 3] 0x0106) (mk .empty .pending (.known 9) []))).map
      (fun t => (t.expLen, t.datSlot, t.cplLog)) = some (.unknown, .empty, [.datOk [1, 2, 3]]) := by decide
/-- V50. -/
theorem test_dat_bad_drops :
    (after (exec (.dat 1 [1, 255, 3] 0x0106) (mk .empty .pending (.known 9) []))).map
      (fun t => (t.expLen, t.datSlot, t.cplLog)) = some (.unknown, .pending, []) := by decide
/-- V4. -/
theorem test_sendCmd_arms :
    (after (exec (.sendCmd 0x0012 1) (answering .ok State.reset))).map (fun t => (t.rspSlot, t.txLog)) = some (.pending,
      [⟨[0x55, 0xAA, 0x01, 0x00, 0x01, 0x00, 0x00, 0x00, 0x12, 0x00, 0x13, 0x01], .ok⟩]) := by decide
/-- V10. -/
theorem test_sendCmd_reuse :
    (after (exec (.sendCmd 0x0012 0) (answering .ok (mk .pending .empty .unknown [])))).map
      (fun t => (t.txLog, t.cplLog)) = some ([], [.cmdReuse]) := by decide
/-- V31. -/
theorem test_sendData_writes :
    (after (exec (.sendData [1, 2, 3]) (answering .ok State.reset))).map (fun t => (t.txLog, t.cplLog))
      = some ([⟨dat3, .ok⟩], [.sndOk]) := by decide
/-- V41. -/
theorem test_sendData_write_fails :
    (after (exec (.sendData [1, 2, 3]) (answering .fail State.reset))).map (fun t => (t.txLog, t.cplLog))
      = some ([⟨dat3, .fail⟩], [.sndTxErr]) := by decide
/-- V42. -/
theorem test_recvData_reuse :
    (after (exec (.recvData 9) (mk .empty .pending (.known 30) []))).map (fun t => (t.expLen, t.cplLog))
      = some (.known 30, [.datReuse]) := by decide
/-- V43: 5 is out of range. -/
theorem test_recvData_range :
    (after (exec (.recvData 5) State.reset)).map (fun t => (t.expLen, t.datSlot, t.cplLog))
      = some (.unknown, .empty, [.datInvalid]) := by decide
/-- V12. -/
theorem test_reserved_is_illegal :
    (after (exec .reqReserved State.reset)).map State.cplLog = some [.illegalOp] := by decide
/-- V25: the mismatch takes the good frame behind it. -/
theorem test_feed_mismatch_discards :
    (after (exec (.feed (bad0 ++ ack5)) (mk .pending .empty .unknown []))).map
      (fun t => (t.buf, t.rspSlot, t.cplLog)) = some ([], .pending, []) := by decide
/-- V59: 12 bytes and 5 bytes with a capacity of 16. -/
theorem test_feed_overflow :
    (after (exec (.feed (List.replicate 5 0)) (capped 16 (mk .empty .empty .unknown (List.replicate 12 0))))).map
      (fun t => (t.buf.length, t.fault)) = some (12, some .bufferOverflow) := by decide
/-- V44: the buffer is kept. -/
theorem test_dataTimeout_keeps_buffer :
    (after (exec .dataTimeout (mk .empty .pending (.known 30) [0x5A, 0xA5, 0x01, 0x00, 0x10, 0x11]))).map
      (fun t => (t.buf, t.expLen, t.cplLog))
      = some ([0x5A, 0xA5, 0x01, 0x00, 0x10, 0x11], .unknown, [.datTimeout]) := by decide
/-- V54 (a): disabled once the frame has settled the receive. -/
theorem test_dataTimeout_disabled : refusal (exec .dataTimeout State.reset) = some .notEnabled := by decide
/-- R98. -/
theorem test_cmdTimeout_settles :
    (after (exec .cmdTimeout (timed (mk .pending .empty .unknown [])))).map (fun t => (t.rspSlot, t.cplLog))
      = some (.empty, [.cmdTimeout]) := by decide
/-- R98: by default the event does not exist. -/
theorem test_cmdTimeout_absent :
    refusal (exec .cmdTimeout (mk .pending .empty .unknown [])) = some .notEnabled := by decide
/-- V58. -/
theorem test_reset_abandons :
    after (exec .reset (mk .pending .pending (.known 30) [0x5A, 0xA5, 0x01])) = some State.reset := by decide
/-- V53: the Data frame before the Response, in the order of the frames. -/
theorem test_extract_order :
    (after (exec .extract (mk .pending .pending (.known 9) (dat3 ++ ack0)))).map (fun t => (t.buf, t.cplLog))
      = some ([], [.datOk [1, 2, 3], .cmdOk 0]) := by decide
/-- V48: the second Data frame finds no expectation and waits. -/
theorem test_extract_second_data_waits :
    (after (exec .extract (mk .empty .pending (.known 9) (dat3 ++ dat3)))).map (fun t => (t.buf, t.expLen))
      = some (dat3, .unknown) := by decide
/-- R79: nothing is extracted. -/
theorem test_expect_sets :
    (after (exec (.expect 9) (mk .empty .empty .unknown dat3))).map (fun t => (t.expLen, t.buf))
      = some (.known 9, dat3) := by decide
/-- R80. -/
theorem test_unexpect_clears :
    (after (exec .unexpect (mk .empty .pending (.known 9) dat3))).map (fun t => (t.expLen, t.buf))
      = some (.unknown, dat3) := by decide
/-- R36. -/
theorem test_txWrite_logs :
    (after (exec (.txWrite dat3) (answering .fail State.reset))).map (fun t => (t.txLog, t.txAnswers))
      = some ([⟨dat3, .fail⟩], []) := by decide

/-! ### Witnesses: states and operands that meet the hypotheses of each obligation, clause by clause -/

/-- No state built with `mk` is faulted: the hypothesis `s.fault = none` of most obligations. -/
theorem mk_fault (rsp dat : Slot) (e : ExpLen) (buf : List Byte) : (mk rsp dat e buf).fault = none := rfl

/-- A pending receive with its expectation meets the invariant. -/
theorem inv_of_wait (e : List Byte) : (mk .empty .pending (.known 9) e).Inv := by
  refine ⟨rfl, rfl, rfl, rfl, rfl⟩

/-- Anything may be pending and buffered while no length is expected. -/
theorem inv_of_unknown (a b : Slot) (e : List Byte) : (mk a b .unknown e).Inv := by
  refine ⟨rfl, rfl, rfl, rfl, rfl⟩

theorem witness_EncodeDecodeRoundTrip :
    (Instr.wf (.rspOther 1 0 0 0x0032) = true ∧ (encode (.rspOther 1 0 0 0x0032)).isSome = true) ∧
    (Instr.wf (.rspBadsum 1 5 0 0x0030 0) = true ∧ (encode (.rspBadsum 1 5 0 0x0030 0)).isSome = true) ∧
    (Instr.wf (.dat 1 [] 0x0100) = true ∧ (encode (.dat 1 [] 0x0100)).isSome = true) ∧
    (Instr.wf (.cmd 0xFFFF 0xFFFFFFFF) = true ∧ (encode (.cmd 0xFFFF 0xFFFFFFFF)).isSome = true) := by decide
theorem witness_DecodedInstructionIsWellFormed :
    decode (.rxFrame ack5) = .ok (.rspAck 1 5 0) ∧
    decodeRx ack5 = .ok (.rspAck 1 5 0) ∧ decodeRx nackC = .ok (.rspNack 1 0x100C 0) ∧
    decodeRx [0x55, 0xAA, 0x01, 0x00, 0x00, 0x00, 0x00, 0x00, 0x2F, 0x00, 0x2F, 0x01] = .ok (.rspOther 1 0 0 0x002F) ∧
    decodeRx bad0 = .ok (.rspBadsum 1 0 0 0x0030 0x0131) ∧
    decodeRx [0x5A, 0xA5, 0x07, 0x00, 0x00, 0x00] = .ok (.dat 7 [] 0) ∧
    decodeTx (encCmd 0x0012 1) = .ok (.cmd 0x0012 1) ∧ decodeTx dat3 = .ok (.dat 1 [1, 2, 3] 0x0106) :=
  ⟨rfl, rfl, rfl, rfl, rfl, rfl, rfl, rfl⟩
theorem witness_ReceivedFrameReencodesToItself :
    decodeRx [0x55, 0xAA, 0x02, 0x00, 0x00, 0x00, 0x34, 0x12, 0x32, 0x00, 0x79, 0x01]
      = .ok (.rspOther 2 0 0x1234 0x0032) ∧
    decodeRx [0x5A, 0xA5, 0x07, 0x00, 0x06, 0x01] = .ok (.dat 7 [] 0x0106) := ⟨rfl, rfl⟩
theorem witness_InternalOperationsHaveNoEncoding : encode .extract = none ∧ encode (.expect 6) = none := by decide
theorem witness_ChecksumIgnoresOrderAndSeesOneByte :
    List.Perm [(1 : Byte), 2] [2, 1] ∧ (0x05 : Byte) ≠ 0x04 := ⟨List.Perm.swap _ _ _, by decide⟩
theorem witness_HeadClassification :
    (mk .empty .empty .unknown [0x55]).buf.length < 2 ∧
    (mk .empty .empty .unknown [0x55, 0xAA]).buf = 0x55 :: 0xAA :: [] ∧
    ((mk .empty .pending (.known 6) [0x5A, 0xA5]).buf = 0x5A :: 0xA5 :: [] ∧
      (mk .empty .pending (.known 6) [0x5A, 0xA5]).expLen = .known 6) ∧
    ((mk .empty .empty .unknown dat3).buf = 0x5A :: 0xA5 :: dat3.drop 2 ∧
      (mk .empty .empty .unknown dat3).expLen = .unknown) ∧
    ((mk .empty .empty .unknown [0x55, 0xA5]).buf = 0x55 :: 0xA5 :: [] ∧
      ¬((0x55 : Byte) = 0x55 ∧ (0xA5 : Byte) = 0xAA) ∧ ¬((0x55 : Byte) = 0x5A ∧ (0xA5 : Byte) = 0xA5)) ∧
    ((mk .empty .empty .unknown dat3).buf.take 2 = (mk .pending .empty .unknown [0x5A, 0xA5]).buf.take 2 ∧
      (mk .empty .empty .unknown dat3).expLen = (mk .pending .empty .unknown [0x5A, 0xA5]).expLen) ∧
    ((mk .empty .empty .unknown dat3).fault = none ∧ classify (mk .empty .empty .unknown dat3) = none) := by decide
theorem witness_ExtractionWaits :
    (mk .empty .empty .unknown [0x5A]).fault = none ∧ (mk .empty .empty .unknown [0x5A]).buf.length < 2 ∧
    (mk .empty .empty .unknown [0x00, 0x55]).buf = 0x00 :: 0x55 :: [] ∧
    ((mk .pending .empty .unknown (ack5.take 11)).buf = 0x55 :: 0xAA :: (ack5.take 11).drop 2 ∧
      (mk .pending .empty .unknown (ack5.take 11)).buf.length < 12) ∧
    ((mk .empty .empty .unknown dat3).buf = 0x5A :: 0xA5 :: dat3.drop 2 ∧
      (mk .empty .empty .unknown dat3).expLen = .unknown) ∧
    ((mk .empty .pending (.known 9) (dat3.take 8)).buf = 0x5A :: 0xA5 :: (dat3.take 8).drop 2 ∧
      (mk .empty .pending (.known 9) (dat3.take 8)).buf.length < 9) := by decide
theorem witness_ExtractionRunsTheDecodedFrame :
    (mk .pending .pending (.known 9) (ack5 ++ [0x55])).Inv ∧
    classify (mk .pending .pending (.known 9) (ack5 ++ [0x55])) = some (.response, ack5.length) ∧
    decodeRx ack5 = .ok (.rspAck 1 5 0) ∧
    (mk .empty .pending (.known 9) dat3).Inv ∧
    classify (mk .empty .pending (.known 9) dat3) = some (.data, dat3.length) ∧
    decodeRx dat3 = .ok (.dat 1 [1, 2, 3] 0x0106) :=
  ⟨⟨rfl, rfl, rfl, rfl, rfl⟩, by decide, rfl, inv_of_wait _, by decide, rfl⟩
theorem witness_ExtractionPassBound :
    (mk .pending .empty .unknown (ack5 ++ ack0)).Inv ∧
    (mk .pending .empty .unknown (ack5 ++ ack0)).buf.length / 6 ≤ 4 :=
  ⟨inv_of_unknown _ _ _, by decide⟩
theorem witness_FeedAppendsThenExtracts :
    (∀ cap, (capped 12 State.reset).cfg.bufCap = some cap → (capped 12 State.reset).buf.length + ack5.length ≤ cap) ∧
    (capped 11 State.reset).cfg.bufCap = some 11 ∧ 11 < (capped 11 State.reset).buf.length + ack5.length ∧
    (capped 12 State.reset).fault = none :=
  ⟨fun cap h => by cases h; decide, by decide⟩
theorem witness_NoCompleteFrameLeftAtHead :
    (mk .empty .pending (.known 9) []).Inv ∧ overflows (dat3.take 8) (mk .empty .pending (.known 9) []) = false ∧
    (after (exec (.feed (dat3.take 8)) (mk .empty .pending (.known 9) []))).map (fun t => (t.buf, t.expLen))
      = some (0x5A :: 0xA5 :: (dat3.take 8).drop 2, .known 9) ∧
    (after (exec (.feed (ack5.take 11)) (mk .empty .pending (.known 9) []))).map State.buf
      = some (0x55 :: 0xAA :: (ack5.take 11).drop 2) :=
  ⟨inv_of_wait _, by decide, by decide, by decide⟩
/-- V24 with a Data frame behind: two deliveries, one for each slot. -/
theorem witness_AtMostOneSettlementPerSlot :
    (after (exec (.feed (ack5 ++ nackC ++ dat3)) (mk .pending .pending (.known 9) []))).map State.cplLog
      = some [.cmdOk 5, .datOk [1, 2, 3]] := by decide
theorem witness_FedResponseSettlesTheCommand :
    (capped 12 (mk .pending .empty .unknown [])).fault = none ∧ (capped 12 (mk .pending .empty .unknown [])).buf = [] ∧
    (capped 12 (mk .pending .empty .unknown [])).rspSlot = .pending ∧
    overflows (withChecksum (rspBody 1 0xFFFF 0xFFFF 0x0030)) (capped 12 (mk .pending .empty .unknown [])) = false ∧
    overflows (withChecksum (rspBody 1 0 0 0x0031)) (capped 12 (mk .pending .empty .unknown [])) = false := by decide
theorem witness_AckSettlesTheCommand :
    (mk .pending .empty .unknown []).fault = none ∧ (mk .pending .empty .unknown []).rspSlot = .pending ∧
    (mk .pending .empty .unknown []).cfg.bufCap = none ∧ (mk .pending .empty .unknown []).buf = [] ∧
    (after (exec (.rspAck 1 5 0) (mk .pending .empty .unknown []))).isSome = true ∧
    decodeRx ack5 = .ok (.rspAck 1 5 0) := ⟨rfl, rfl, rfl, rfl, by decide, rfl⟩
theorem witness_NackSettlesTheCommand :
    (mk .pending .pending (.known 30) []).fault = none ∧ (mk .pending .pending (.known 30) []).rspSlot = .pending := by
  decide
theorem witness_OtherStatusSettlesTheCommand :
    (mk .pending .empty .unknown []).fault = none ∧ (mk .pending .empty .unknown []).rspSlot = .pending ∧
    (0x0032 : Half) ≠ 0x0030 ∧ (0x0032 : Half) ≠ 0x0031 ∧ (0x002F : Half) ≠ 0x0030 := by decide
theorem witness_DataFrameSettlesTheReceive :
    (mk .empty .pending (.known 9) []).fault = none ∧ (mk .empty .pending (.known 9) []).datSlot = .pending := by decide
/-- V27, and V48 with the expectation kept. -/
theorem witness_UnsolicitedPacketsVanish :
    (mk .empty .pending (.known 9) []).fault = none ∧ (mk .empty .pending (.known 9) []).rspSlot = .empty ∧
    (mk .pending .empty .unknown []).datSlot = .empty ∧
    ((capped 12 State.reset).fault = none ∧ (capped 12 State.reset).buf = [] ∧ (capped 12 State.reset).rspSlot = .empty ∧
      overflows (withChecksum (rspBody 1 5 0 0x0030)) (capped 12 State.reset) = false) ∧
    ((kept (mk .empty .empty (.known 9) [])).buf = [] ∧ (kept (mk .empty .empty (.known 9) [])).datSlot = .empty ∧
      (kept (mk .empty .empty (.known 9) [])).expLen = .known (([1, 2, 3] : List Byte).length + 6) ∧
      overflows (withChecksum (datBody 1 [1, 2, 3])) (kept (mk .empty .empty (.known 9) [])) = false) := by decide
theorem witness_MismatchDropsEverything :
    (0x0131 : Half) ≠ sum16 (rspBody 1 0 0 0x0030) ∧ (0x0106 : Half) ≠ sum16 (datBody 1 [1, 255, 3]) ∧
    (mk .pending .pending (.known 9) (bad0 ++ ack5)).buf = rspBody 1 0 0 0x0030 ++ b16 0x0131 ++ ack5 ∧
    (mk .empty .pending (.known 6) [0x5A, 0xA5, 1, 0, 0, 0]).buf = datBody 1 [] ++ b16 0 ++ [] ∧
    (0 : Half) ≠ sum16 (datBody 1 []) ∧
    (mk .empty .pending (.known 6) [0x5A, 0xA5, 1, 0, 0, 0]).expLen = .known (([] : List Byte).length + 6) ∧
    ((mk .empty .pending (.known 30) []).cfg.bufCap = none ∧ (mk .empty .pending (.known 30) []).buf = [] ∧
      (mk .empty .pending (.known 30) []).expLen = .known 30) := by decide
theorem witness_ResponseThenDataInOneChunk :
    (mk .pending .pending (.known 9) []).fault = none ∧ (mk .pending .pending (.known 9) []).buf = [] ∧
    overflows (withChecksum (rspBody 1 0 0 0x0030) ++ withChecksum (datBody 1 [1, 2, 3]))
      (capped 21 (mk .pending .pending (.known 9) [])) = false ∧
    (mk .pending .pending (.known 9) []).expLen = .known (([1, 2, 3] : List Byte).length + 6) := by decide
theorem witness_EchoedCommandIsTakenForAResponse :
    (capped 12 (mk .pending .empty .unknown [])).fault = none ∧
    overflows (encCmd 0x0030 0xABCD1234) (capped 12 (mk .pending .empty .unknown [])) = false ∧
    (capped 12 (mk .pending .empty .unknown [])).rspSlot = .pending := by decide
theorem witness_SendCommandWritesAndArms :
    (answering .ok State.reset).fault = none ∧ (answering .ok State.reset).rspSlot = .empty ∧
    txAnswer (answering .ok State.reset) = .ok := by decide
theorem witness_SecondCommandIsRefused :
    (answering .fail (mk .pending .empty .unknown [])).fault = none ∧
    (answering .fail (mk .pending .empty .unknown [])).rspSlot = .pending := by decide
theorem witness_FailedCommandWriteIsReported :
    (answering .fail State.reset).fault = none ∧ (answering .fail State.reset).rspSlot = .empty ∧
    txAnswer (answering .fail State.reset) = .fail := by decide
theorem witness_SendDataCompletesAtOnce :
    (lenMaxed 9 State.reset).fault = none ∧
    (lenMaxed 9 State.reset).cfg.lenMax - 6 < ([1, 2, 3, 4] : List Byte).length ∧
    ([1, 2, 3] : List Byte).length ≤ (lenMaxed 9 State.reset).cfg.lenMax - 6 := by decide
theorem witness_ReceiveDataArms :
    State.reset.fault = none ∧ State.reset.datSlot = .empty ∧
    (6 ≤ (6 : Half).toNat ∧ (6 : Half).toNat ≤ State.reset.cfg.lenMax) ∧
    (6 ≤ (65535 : Half).toNat ∧ (65535 : Half).toNat ≤ State.reset.cfg.lenMax) := by decide
theorem witness_ReceiveDataRefusals :
    (mk .empty .pending (.known 30) []).datSlot = .pending ∧ State.reset.datSlot = .empty ∧ (5 : Half).toNat < 6 ∧
    (lenMaxed 9 State.reset).cfg.lenMax < (10 : Half).toNat := by decide
theorem witness_ReservedRequestIsIllegal : State.reset.fault = none := by decide
/-- V45, and the same with a Response behind the frame (P4, steps 8 to 10). -/
theorem witness_ReceiveDataTakesEffectAtTheNextFeed :
    ((lenMaxed 9 (mk .empty .empty .unknown dat3)).fault = none ∧
      (lenMaxed 9 (mk .empty .empty .unknown dat3)).datSlot = .empty ∧
      ([1, 2, 3] : List Byte).length + 6 ≤ (lenMaxed 9 (mk .empty .empty .unknown dat3)).cfg.lenMax ∧
      (lenMaxed 9 (mk .empty .empty .unknown dat3)).buf = withChecksum (datBody 1 [1, 2, 3]) ++ [] ∧
      overflows [] (capped 9 (mk .empty .empty .unknown dat3)) = false) ∧
    ((kept (mk .pending .empty .unknown (dat3 ++ ack0))).datSlot = .empty ∧
      (kept (mk .pending .empty .unknown (dat3 ++ ack0))).buf = withChecksum (datBody 1 [1, 2, 3]) ++ ack0 ∧
      overflows ack5 (kept (mk .pending .empty .unknown (dat3 ++ ack0))) = false) := by decide
theorem witness_DataTimeoutSettlesTheReceive :
    (mk .empty .pending (.known 9) dat3).fault = none ∧ (mk .empty .pending (.known 9) dat3).datSlot = .pending ∧
    State.reset.datSlot = .empty := by decide
theorem witness_CommandTimeoutSettlesTheCommand :
    ((timed (mk .pending .empty .unknown [])).cfg.tCmd ≠ none ∧
      (timed (mk .pending .empty .unknown [])).rspSlot = .pending) ∧
    (mk .pending .empty .unknown []).cfg.tCmd = none ∧ (timed State.reset).rspSlot = .empty := by decide
theorem witness_ExpectedLengthMicroOperations : (mk .empty .empty .unknown dat3).fault = none := by decide
theorem witness_FramesAreWrittenWhole : (answering .fail State.reset).fault = none := by decide
theorem witness_StepServesTheOldestEvent :
    State.reset.inbox = [] ∧
    ((due [.rx ack5] State.reset).inbox = .rx ack5 :: [] ∧ cancelled (.rx ack5) (due [.rx ack5] State.reset) = false) ∧
    ((due [.tmrData, .rst] State.reset).inbox = .tmrData :: [.rst] ∧
      cancelled .tmrData (due [.tmrData, .rst] State.reset) = true) := by decide
theorem witness_FaultedBlockServesOnlyReset :
    (after (exec (.feed [0]) (capped 0 State.reset))).map State.fault = some (some .bufferOverflow) := by decide
theorem witness_OperationsKeepParametersAndHistory :
    (after (exec (.feed ack5) (due [.rst] (mk .pending .empty .unknown [])))).isSome = true := by decide
theorem witness_StepKeepsTheInvariant :
    (due [.rx dat3] (mk .empty .pending (.known 9) [])).Inv ∧
    (after (step (due [.rx dat3] (mk .empty .pending (.known 9) [])))).isSome = true :=
  ⟨⟨rfl, rfl, rfl, rfl, rfl⟩, by decide⟩
theorem witness_LogsAreNeverRead :
    (after (step (State.withoutLogs (answering .ok (due [.req ⟨0b10, 0, 0, [1, 2, 3], 0⟩] State.reset))))).map
      State.txLog = some [⟨dat3, .ok⟩] := by decide
theorem witness_WireIsWrittenOnlyForTheHost :
    (after (step (answering .ok (due [.req ⟨0b01, 0x0012, 1, [], 0⟩] State.reset)))).map (fun t => t.txLog.length)
      = some 1 ∧
    (after (step (answering .fail (due [.req ⟨0b10, 0, 0, [1, 2, 3], 0⟩] State.reset)))).map (fun t => t.txLog.length)
      = some 1 ∧
    (after (step (due [.rx ack5] State.reset))).map State.txLog = some [] := by decide
theorem witness_PendingCommandEndsOnlyByResponse :
    (after (step (due [.rst] (mk .pending .empty .unknown [])))).map State.rspSlot = some .empty ∧
    (after (step (due [.tmrCmd] (timed (mk .pending .empty .unknown []))))).map State.rspSlot = some .empty ∧
    (after (step (due [.rx ack5] (mk .pending .empty .unknown [])))).map State.rspSlot = some .empty := by decide
/-- V55. -/
theorem witness_StrandedReceiveStaysStranded :
    (due [.rx dat3] (mk .pending .pending .unknown [])).datSlot = .pending ∧
    (due [.rx dat3] (mk .pending .pending .unknown [])).expLen = .unknown ∧
    (after (step (due [.rx dat3] (mk .pending .pending .unknown [])))).map State.buf = some dat3 ∧
    (due [.rx dat3] (mk .pending .pending .unknown [])).inbox.head? ≠ some .tmrData ∧
    (due [.rx dat3] (mk .pending .pending .unknown [])).inbox.head? ≠ some .rst := by decide
/-- V28: the head `55 00`. -/
theorem witness_WedgeIsPermanent :
    (due [.rx ack5] (mk .pending .empty .unknown [0x55, 0x00])).wedged = true ∧
    (after (step (due [.rx ack5] (mk .pending .empty .unknown [0x55, 0x00])))).map State.rspSlot = some .pending ∧
    (due [.rx ack5] (mk .pending .empty .unknown [0x55, 0x00])).inbox.head? ≠ some .rst := by decide
theorem witness_ChunkingIsInvisibleWithoutMismatch :
    (mk .pending .pending (.known 9) []).Inv ∧ overflows (ack5 ++ dat3) (mk .pending .pending (.known 9) []) = false ∧
    (memAppend (ack5 ++ dat3) (mk .pending .pending (.known 9) [])).extractsWithoutMismatch = true :=
  ⟨⟨rfl, rfl, rfl, rfl, rfl⟩, by decide, by decide⟩
/-- V25, V26. -/
theorem witness_ChunkingIsObservableAfterAMismatch :
    (mk .pending .empty .unknown []).buf = [] ∧ (0x0131 : Half) ≠ sum16 (rspBody 1 0 0 0x0030) ∧
    overflows (rspBody 1 0 0 0x0030 ++ b16 0x0131 ++ ack5) (capped 24 (mk .pending .empty .unknown [])) = false := by
  decide
theorem witness_DataRoundTrip :
    (capped 9 (lenMaxed 9 State.reset)).fault = none ∧ overflows (encDat [1, 2, 3]) (capped 9 (lenMaxed 9 State.reset)) = false ∧
    (capped 9 (lenMaxed 9 State.reset)).cfg.keepLenAfterData = false ∧ (capped 9 (lenMaxed 9 State.reset)).datSlot = .empty ∧
    ([1, 2, 3] : List Byte).length + 6 ≤ (capped 9 (lenMaxed 9 State.reset)).cfg.lenMax ∧
    [dat3.take 1, [], dat3.drop 1].flatten = encDat [1, 2, 3] := by decide
theorem witness_CorruptedResponseIsDropped :
    overflows (withChecksum (rspBody 1 5 0 0x0030)) (mk .pending .empty .unknown []) = false ∧
    (withChecksum (rspBody 1 5 0 0x0030))[2]? ≠ some 0x00 ∧
    (withChecksum (rspBody 1 5 0 0x0030))[11]? ≠ some 0x02 := by decide
theorem witness_CorruptedDataIsDropped :
    overflows (withChecksum (datBody 1 [1, 2, 3])) (mk .empty .pending (.known 9) []) = false ∧
    (mk .empty .pending (.known 9) []).expLen = .known (([1, 2, 3] : List Byte).length + 6) ∧
    (withChecksum (datBody 1 [1, 2, 3]))[2]? ≠ some 0x00 ∧
    8 < ([1, 2, 3] : List Byte).length + 6 ∧ (withChecksum (datBody 1 [1, 2, 3]))[8]? ≠ some 0xFF := by decide
/-- V21, V51. -/
theorem witness_CorruptedHeaderWedges :
    overflows (withChecksum (rspBody 1 5 0 0x0030)) (mk .pending .empty .unknown []) = false ∧
    (withChecksum (rspBody 1 5 0 0x0030))[0]? ≠ some 0x5A ∧ (withChecksum (rspBody 1 5 0 0x0030))[1]? ≠ some 0xA5 ∧
    overflows (withChecksum (datBody 1 [1, 2, 3])) (mk .empty .pending (.known 9) []) = false ∧
    (withChecksum (datBody 1 [1, 2, 3]))[0]? ≠ some 0x5B ∧ (withChecksum (datBody 1 [1, 2, 3]))[1]? ≠ some 0xAA := by
  decide

end Sys2Proof.Tests
end

section
/-! PROOFS. The framer's statements: the classification of the buffer's head (R72) and the silent drop (R76). -/

namespace Sys2Proof.Machine

/-! ### What the framer's operations answer on an unfaulted block -/

/-- `EXTRACT` runs the extraction procedure (R71). -/
theorem exec_extract {s : State} (hf : s.fault = none) : exec .extract s = .next (extract s) :=
  served_of_noFault extract hf

theorem exec_extract_of_wait {s : State} (hf : s.fault = none) (hw : extractPass s = .wait) :
    exec .extract s = .next s := by
  rw [exec_extract hf, extract_of_wait hw]

theorem exec_extract_of_dropped {s t : State} (hf : s.fault = none) (hd : extractPass s = .dropped t) :
    exec .extract s = .next t := by
  rw [exec_extract hf, extract_of_dropped hd]

/-- `FEED` of a chunk that fits appends it and extracts (R70). -/
theorem exec_feed_of_fits {chunk : List Byte} {s : State} (hf : s.fault = none) (ho : overflows chunk s = false) :
    exec (.feed chunk) s = exec .extract (memAppend chunk s) := by
  have hfeed : feed chunk s = extract (memAppend chunk s) := by simp [feed, ho]
  rw [exec_extract (by simpa using hf), ← hfeed]
  exact served_of_noFault (feed chunk) hf

theorem overflows_of_unbounded (chunk : List Byte) {s : State} (hc : s.cfg.bufCap = none) :
    overflows chunk s = false := by
  simp [overflows, hc]

/-! ### The head of the buffer -/

/-- The header is a function of the first two bytes, whichever they are (R56). -/
theorem headerKind_take_two (f : List Byte) : headerKind (f.take 2) = headerKind f := by
  by_cases hl : f.length < 2
  · rw [List.take_of_length_le (Nat.le_of_lt hl)]
  · have h2 : 2 ≤ (f.take 2).length := by rw [List.length_take]; omega
    calc headerKind (f.take 2) = headerKind (f.take 2 ++ f.drop 2) := (headerKind_append (f.drop 2) h2).symm
      _ = headerKind f := by rw [List.take_append_drop]

/-- Two leading bytes that are neither header are unknown (R56). -/
theorem headerKind_none_of_unknown {a b : Byte} (rest : List Byte) (hr : ¬(a = 0x55 ∧ b = 0xAA))
    (hd : ¬(a = 0x5A ∧ b = 0xA5)) : headerKind (a :: b :: rest) = none := by
  match hk : headerKind (a :: b :: rest) with
  | none => rfl
  | some .response =>
    obtain ⟨_, he⟩ := headerKind_eq_response.mp hk
    cases he
    exact absurd ⟨rfl, rfl⟩ hr
  | some .data =>
    obtain ⟨_, he⟩ := headerKind_eq_data.mp hk
    cases he
    exact absurd ⟨rfl, rfl⟩ hd

theorem classify_of_unknownHeader {s : State} (hk : headerKind s.buf = none) : classify s = none := by
  simp [classify, hk]

theorem classify_of_response {s : State} (hk : headerKind s.buf = some .response) :
    classify s = some (.response, 12) := by
  simp [classify, hk, rspLen]

theorem classify_of_data_known {s : State} {n : Nat} (hk : headerKind s.buf = some .data)
    (he : s.expLen = .known n) : classify s = some (.data, n) := by
  simp [classify, hk, he]

theorem classify_of_data_unknown {s : State} (hk : headerKind s.buf = some .data)
    (he : s.expLen = .unknown) : classify s = none := by
  simp [classify, hk, he]

/-- Classification reads the two leading bytes and the expectation, and nothing else (R72). -/
theorem classify_congr {s t : State} (hb : t.buf.take 2 = s.buf.take 2) (he : t.expLen = s.expLen) :
    classify t = classify s := by
  have hk : headerKind t.buf = headerKind s.buf := by
    rw [← headerKind_take_two t.buf, hb, headerKind_take_two]
  rw [classify, classify, hk, he]

theorem extractPass_of_unclassified {s : State} (h : classify s = none) : extractPass s = .wait := by
  simp [extractPass, h]

/-- Settles O11: each clause is the value of the header kind, then that of `classify` for it. -/
theorem headClassification : Obligations.HeadClassification := by
  intro s
  refine ⟨fun hl => classify_of_unknownHeader (headerKind_none_of_short hl), ?_,
    fun t hb he => classify_congr hb he,
    fun hf hc => exec_extract_of_wait hf (extractPass_of_unclassified hc)⟩
  intro b0 b1 rest hbuf
  have hdata : b0 = 0x5A ∧ b1 = 0xA5 → headerKind s.buf = some .data := by
    rintro ⟨rfl, rfl⟩
    exact headerKind_eq_data.mpr ⟨rest, hbuf⟩
  refine ⟨?_, fun n hd he => classify_of_data_known (hdata hd) he,
    fun hd he => classify_of_data_unknown (hdata hd) he, fun hr hd => classify_of_unknownHeader ?_⟩
  · rintro ⟨rfl, rfl⟩
    exact classify_of_response (headerKind_eq_response.mpr ⟨rest, hbuf⟩)
  · rw [hbuf]
    exact headerKind_none_of_unknown rest hr hd

/-! ### The drop on a wrong checksum -/

theorem judgeDat_of_mismatch {d c : Half} {payload : List Byte} (s : State) (hc : c ≠ sum16 (datBody d payload)) :
    judgeDat ⟨d, payload, c⟩ s = { s with buf := [], expLen := .unknown } := by
  simp [judgeDat, hc, dropAll, unexpectLen, memClear]

theorem judgeRsp_of_mismatch {d p r st c : Half} (s : State) (hc : c ≠ sum16 (rspBody d p r st)) :
    judgeRsp ⟨d, p, r, st, c⟩ s = { s with buf := [], expLen := .unknown } := by
  simp [judgeRsp, hc, dropAll, unexpectLen, memClear]

theorem exec_rspBadsum_of_mismatch {d p r st c : Half} {s : State} (hf : s.fault = none)
    (hc : c ≠ sum16 (rspBody d p r st)) :
    exec (.rspBadsum d p r st c) s = .next { s with buf := [], expLen := .unknown } := by
  rw [← judgeRsp_of_mismatch s hc]
  exact served_of_noFault _ hf

theorem exec_dat_of_mismatch {d c : Half} {payload : List Byte} {s : State} (hf : s.fault = none)
    (hc : c ≠ sum16 (datBody d payload)) :
    exec (.dat d payload c) s = .next { s with buf := [], expLen := .unknown } := by
  rw [← judgeDat_of_mismatch s hc]
  exact served_of_noFault _ hf

theorem exec_extract_of_response_mismatch {d p r st c : Half} {rest : List Byte} {s : State} (hf : s.fault = none)
    (hc : c ≠ sum16 (rspBody d p r st)) (hb : s.buf = rspBody d p r st ++ b16 c ++ rest) :
    exec .extract s = .next { s with buf := [], expLen := .unknown } :=
  exec_extract_of_dropped hf (by rw [extractPass_response hb, if_neg hc])

theorem exec_extract_of_data_mismatch {d c : Half} {payload rest : List Byte} {s : State} (hf : s.fault = none)
    (hc : c ≠ sum16 (datBody d payload)) (hb : s.buf = datBody d payload ++ b16 c ++ rest)
    (he : s.expLen = .known (payload.length + 6)) :
    exec .extract s = .next { s with buf := [], expLen := .unknown } :=
  exec_extract_of_dropped hf (by rw [extractPass_data hb he, if_neg hc])

/-- A Response with a wrong checksum, fed to an empty buffer with any bytes behind it, costs the expectation and
nothing else (R70, R76). -/
theorem exec_feed_of_response_mismatch {d p r st c : Half} {rest : List Byte} {s : State} (hf : s.fault = none)
    (hb : s.buf = []) (hc : c ≠ sum16 (rspBody d p r st))
    (ho : overflows (rspBody d p r st ++ b16 c ++ rest) s = false) :
    exec (.feed (rspBody d p r st ++ b16 c ++ rest)) s = .next { s with expLen := .unknown } := by
  have hhead : (memAppend (rspBody d p r st ++ b16 c ++ rest) s).buf = rspBody d p r st ++ b16 c ++ rest := by
    simp [hb]
  rw [exec_feed_of_fits hf ho, exec_extract_of_response_mismatch (by simpa using hf) hc hhead]
  simp [memAppend, hb]

/-- Settles O24: the candidate's drop as a row, at the head of the buffer, and in the rule's example chunk, which is a
Response with checksum `0x0131` for `0x0130` and two bytes of a Data header behind it. -/
theorem mismatchDropsEverything : Obligations.MismatchDropsEverything := by
  refine ⟨fun _ _ _ _ _ _ hf hc => exec_rspBadsum_of_mismatch hf hc,
    fun _ _ _ _ hf hc => exec_dat_of_mismatch hf hc,
    fun _ _ _ _ _ _ _ hf hc hb => exec_extract_of_response_mismatch hf hc hb,
    fun _ _ _ _ _ hf hc hb he => exec_extract_of_data_mismatch hf hc hb he,
    fun _ => rfl, fun s hf hcap hb _ => ?_⟩
  have hc : (0x0131 : Half) ≠ sum16 (rspBody 1 0 0 0x0030) := by decide
  exact exec_feed_of_response_mismatch (rest := [0x5A, 0xA5]) hf hb hc (overflows_of_unbounded _ hcap)

end Sys2Proof.Machine
end

section
/-! PROOFS. The command's statements: the bytes of a Command frame (R91) and the command an ACK settles (R94). -/

namespace Sys2Proof.Machine

/-! ### The bytes of a Command frame -/

/-- A byte cut out by division is a bit range. -/
theorem ofNat_div_eq_extract {w : Nat} (v : BitVec w) (k : Nat) :
    BitVec.ofNat 8 (v.toNat / 2 ^ k) = v.extractLsb' k 8 := by
  rw [BitVec.extractLsb', Nat.shiftRight_eq_div_pow]

/-- The two bytes of a 16-bit value are its bit ranges, the low one first (R7). -/
theorem b16_eq_extract (v : Half) : b16 v = [v.extractLsb' 0 8, v.extractLsb' 8 8] := by
  simp [b16, ← ofNat_div_eq_extract]

/-- The four bytes of a 32-bit value are its bit ranges, the lowest first (R7). -/
theorem b32_eq_extract (v : Long) :
    b32 v = [v.extractLsb' 0 8, v.extractLsb' 8 8, v.extractLsb' 16 8, v.extractLsb' 24 8] := by
  simp [b32, ← ofNat_div_eq_extract]

/-- The first ten bytes of a Command frame, each by its offset (R51, R91). -/
theorem cmdBody_eq_bytes (opcode : Half) (param : Long) :
    cmdBody opcode param =
      [0x55, 0xAA, 0x01, 0x00, param.extractLsb' 0 8, param.extractLsb' 8 8, param.extractLsb' 16 8,
        param.extractLsb' 24 8, opcode.extractLsb' 0 8, opcode.extractLsb' 8 8] := by
  have hdev : b16 devIdWord = [0x01, 0x00] := rfl
  simp [cmdBody, hdrRsp0, hdrRsp1, hdev, b32_eq_extract, b16_eq_extract opcode]

/-- Start code and device id contribute `0x100` to the checksum (R91). -/
theorem byteSum_cmdBody (opcode : Half) (param : Long) :
    byteSum (cmdBody opcode param) =
      0x100 + (param.extractLsb' 0 8).toNat + (param.extractLsb' 8 8).toNat + (param.extractLsb' 16 8).toNat
        + (param.extractLsb' 24 8).toNat + (opcode.extractLsb' 0 8).toNat + (opcode.extractLsb' 8 8).toNat := by
  rw [cmdBody_eq_bytes]
  simp only [byteSum_cons, byteSum_nil, BitVec.reduceToNat]
  omega

/-- Six operand bytes of at most 255 each above the constant `0x100` (R91). -/
theorem byteSum_cmdBody_le (opcode : Half) (param : Long) : byteSum (cmdBody opcode param) ≤ 1786 := by
  rw [byteSum_cmdBody]
  have hp (k : Nat) : (param.extractLsb' k 8).toNat < 256 := BitVec.isLt _
  have ho (k : Nat) : (opcode.extractLsb' k 8).toNat < 256 := BitVec.isLt _
  linarith [hp 0, hp 8, hp 16, hp 24, ho 0, ho 8]

/-- The bound on the sum bounds the checksum's high byte, the frame's last (R91). -/
theorem highByte_le_six {n : Nat} (h : n ≤ 1786) :
    ((BitVec.ofNat 16 n).extractLsb' 8 8).toNat ≤ 6 := by
  rw [BitVec.extractLsb'_toNat, BitVec.toNat_ofNat, Nat.shiftRight_eq_div_pow]
  omega

/-- Settles O7: the body's bytes and their sum are known for all operands; the checksum is that sum. -/
theorem commandFrameLayout : Obligations.CommandFrameLayout := by
  refine ⟨fun opcode param => ?_, by decide⟩
  have hle := byteSum_cmdBody_le opcode param
  have henc : encCmd opcode param = cmdBody opcode param ++ b16 (BitVec.ofNat 16 (byteSum (cmdBody opcode param))) :=
    rfl
  rw [byteSum_cmdBody] at hle henc
  refine ⟨hle, ?_, highByte_le_six hle⟩
  rw [henc, cmdBody_eq_bytes, b16_eq_extract]
  rfl

/-! ### The settled command -/

/-- With the command pending its resolution writes the slot and the completion alone (R94 to R96). -/
theorem settleCmd_of_pending (c : Completion) {s : State} (hp : s.rspSlot = .pending) :
    settleCmd c s = { s with rspSlot := .empty, cplLog := s.cplLog ++ [c] } := by
  simp [settleCmd, hp, complete, setRspSlot]

theorem exec_rspAck_of_pending (devId param reserved : Half) {s : State} (hf : s.fault = none)
    (hp : s.rspSlot = .pending) :
    exec (.rspAck devId param reserved) s
      = .next { s with rspSlot := .empty, cplLog := s.cplLog ++ [.cmdOk param] } := by
  rw [← settleCmd_of_pending (.cmdOk param) hp]
  exact served_of_noFault _ hf

/-- The command timer follows the slot (R98). -/
theorem cmdTimerArmed_of_empty {s : State} (he : s.rspSlot = .empty) : cmdTimerArmed s = false := by
  simp [cmdTimerArmed, rspPending, he]

/-! ### The Response frame and its row -/

/-- A received frame is a whole Response or a whole Data frame, decoded as such (R56). -/
theorem decodeRx_cases {f : List Byte} {i : Instr} (h : decodeRx f = .ok i) :
    (headerKind f = some .response ∧ f.length = 12 ∧ i = decodeRsp f) ∨
    (headerKind f = some .data ∧ 6 ≤ f.length ∧ i = decodeDat f) := by
  unfold decodeRx at h
  split at h
  · cases h
  · split at h
    · cases h
    · next hk =>
      split at h
      · next hl => cases h; exact .inl ⟨hk, hl, rfl⟩
      · cases h
    · next hk =>
      split at h
      · next hl => cases h; exact .inr ⟨hk, hl, rfl⟩
      · cases h

/-- The row of a Response candidate, by its checksum and its status (R58, R68). -/
theorem decodeRsp_body (d p r st c : Half) :
    decodeRsp (rspBody d p r st ++ b16 c) =
      if c = sum16 (rspBody d p r st) then
        if st = ackWord then .rspAck d p r
        else if st = nackWord then .rspNack d p r
        else .rspOther d p r st
      else .rspBadsum d p r st c := by
  simp [decodeRsp, responsePacket_body, checksumOk_body, eq_comm (a := c)]

/-- What decodes to `RSP.ACK` is the one valid frame of its fields with status `0x0030` (R52, R68, R94). -/
theorem eq_frame_of_decodeRx_rspAck {f : List Byte} {d p r : Half} (h : decodeRx f = .ok (.rspAck d p r)) :
    f = withChecksum (rspBody d p r ackWord) := by
  rcases decodeRx_cases h with ⟨hk, hl, hi⟩ | ⟨_, _, hi⟩
  · obtain ⟨d', p', r', st, c, rfl⟩ := response_shape hk hl
    rw [decodeRsp_body] at hi
    split at hi
    · next hc =>
      split at hi
      · next hst => cases hi; rw [hc, hst, withChecksum]
      · split at hi <;> cases hi
    · cases hi
  · cases hi

/-! ### A fed Response -/

theorem extractPass_of_emptyBuffer {s : State} (hb : s.buf = []) : extractPass s = .wait :=
  extractPass_of_unclassified (classify_of_unknownHeader (headerKind_none_of_short (by simp [hb])))

/-- A frame that leaves the buffer empty is the last one extracted, whatever the expectation (R71). -/
theorem extract_of_accepted_last {s t : State} (h : extractPass s = .accepted t) (hb : t.buf = []) :
    extract s = t := by
  match hl : s.buf with
  | [] => simp [extractPass_of_emptyBuffer hl] at h
  | b :: rest =>
    calc extract s = extractLoop rest.length t := by simp [extract, hl, extractLoop, h]
      _ = t := by cases rest.length <;> simp [extractLoop, extractPass_of_emptyBuffer hb]

/-- A valid Response fed to an empty buffer is consumed and emitted (R70, R77). -/
theorem exec_feed_of_response {d p r st : Half} {s : State} (hf : s.fault = none) (hb : s.buf = [])
    (ho : overflows (withChecksum (rspBody d p r st)) s = false) :
    exec (.feed (withChecksum (rspBody d p r st))) s
      = .next (acceptResponse ⟨d, p, r, st, sum16 (rspBody d p r st)⟩ s) := by
  have hhead : (memAppend (withChecksum (rspBody d p r st)) s).buf
      = rspBody d p r st ++ b16 (sum16 (rspBody d p r st)) ++ [] := by
    simp [hb, withChecksum]
  have hback : { memAppend (withChecksum (rspBody d p r st)) s with buf := [] } = s := by
    simp [memAppend, ← hb]
  have hpass := extractPass_response hhead
  rw [if_pos rfl, hback] at hpass
  obtain ⟨hbuf, _⟩ := acceptResponse_frame ⟨d, p, r, st, sum16 (rspBody d p r st)⟩ s
  rw [exec_feed_of_fits hf ho, exec_extract (by simpa using hf),
    extract_of_accepted_last hpass (hbuf.trans hb)]

/-- A valid ACK Response fed to an empty buffer settles the pending command (R70, R77, R94). -/
theorem exec_feed_of_ack {d p r : Half} {s : State} (hf : s.fault = none) (hb : s.buf = [])
    (hp : s.rspSlot = .pending) (ho : overflows (withChecksum (rspBody d p r ackWord)) s = false) :
    exec (.feed (withChecksum (rspBody d p r ackWord))) s
      = .next { s with rspSlot := .empty, cplLog := s.cplLog ++ [.cmdOk p] } := by
  rw [exec_feed_of_response hf hb ho, acceptResponse, emitRsp, if_pos rfl, settleCmd_of_pending _ hp]

/-- Settles O19: the row's next state, its timer, the frame of the row, and the example, whose bytes are the valid ACK
with param 5. -/
theorem ackSettlesTheCommand : Obligations.AckSettlesTheCommand := by
  refine ⟨fun d p r s hf hp => exec_rspAck_of_pending d p r hf hp, fun s t d p r hf hp ht => ?_,
    fun f d p r h => ?_, fun s hf hcap hb hp => ?_⟩
  · rw [exec_rspAck_of_pending d p r hf hp] at ht
    cases ht
    exact cmdTimerArmed_of_empty rfl
  · rw [eq_frame_of_decodeRx_rspAck h]
    have hparam : (responsePacket (withChecksum (rspBody d p r ackWord))).param = p := by
      rw [withChecksum, responsePacket_body]
    exact ⟨rfl, rfl, rfl, hparam.symm⟩
  · have hframe : [0x55, 0xAA, 0x01, 0x00, 0x05, 0x00, 0x00, 0x00, 0x30, 0x00, 0x35, 0x01]
        = withChecksum (rspBody 1 5 0 ackWord) := by decide
    rw [hframe]
    exact exec_feed_of_ack hf hb hp (overflows_of_unbounded _ hcap)

end Sys2Proof.Machine
end

section
/-! PROOFS. The data channel's statement: the bytes of a Data frame and its checksum (R106). -/

namespace Sys2Proof.Machine

/-! ### The bytes of a Data frame -/

/-- The model's byte sum is the library's sum of the bytes' values (R55). -/
theorem byteSum_eq_sum_map (l : List Byte) : byteSum l = (l.map BitVec.toNat).sum := by
  induction l with
  | nil => rfl
  | cons b l ih => rw [byteSum_cons, ih, List.map_cons, List.sum_cons]

/-- The device id the block sends, in wire order (R61). -/
theorem b16_devIdWord : b16 devIdWord = [0x01, 0x00] := rfl

/-- A built Data frame before its checksum: start code, device id, payload (R53, R61). -/
theorem datBody_devIdWord (payload : List Byte) :
    datBody devIdWord payload = [0x5A, 0xA5, 0x01, 0x00] ++ payload := by
  rw [datBody, b16_devIdWord]
  rfl

/-- Start code and device id contribute `0x100` to the checksum (R106). -/
theorem byteSum_datBody_devIdWord (payload : List Byte) :
    byteSum (datBody devIdWord payload) = 0x100 + (payload.map BitVec.toNat).sum := by
  have hhead : byteSum [0x5A, 0xA5, 0x01, 0x00] = 0x100 := rfl
  rw [datBody_devIdWord, byteSum_append, hhead, byteSum_eq_sum_map]

/-- A built Data frame, its checksum written as the payload's sum above `0x100` (R106). -/
theorem encDat_eq_bytes (payload : List Byte) :
    encDat payload =
      [0x5A, 0xA5, 0x01, 0x00] ++ payload ++ b16 (BitVec.ofNat 16 (0x100 + (payload.map BitVec.toNat).sum)) := by
  rw [encDat, withChecksum, sum16, byteSum_datBody_devIdWord, datBody_devIdWord]

/-- Settles O8: the layout is the frame's bytes with the checksum cut into bit ranges; in the example the sum
`0x100 + 300 * 0xFF = 76756` wraps to `0x2BD4`. -/
theorem dataFrameLayout : Obligations.DataFrameLayout := by
  refine ⟨fun payload => ?_, ?_⟩
  · rw [encDat_eq_bytes, b16_eq_extract]
  · have hsum : ((List.replicate 300 (0xFF : Byte)).map BitVec.toNat).sum = 300 * 0xFF := by
      rw [List.map_replicate, List.sum_replicate, smul_eq_mul]
      rfl
    have hsumBytes : b16 (BitVec.ofNat 16 (0x100 + 300 * 0xFF)) = [0xD4, 0x2B] := by decide
    rw [encDat_eq_bytes, hsum, hsumBytes]

end Sys2Proof.Machine
end

section
/-! PROOFS. The encodings: what the two decoders read from a built frame, what a frame they accept looks like, and the
checksum (R51 to R58, R63, R65, R84 (e)). -/

namespace Sys2Proof.Machine

/-! ### Decoding a built frame -/

/-- Reading the 32-bit field of a Command frame where it was written (R51, R54). -/
theorem le32_cmdBody (opcode : Half) (param : Long) (rest : List Byte) :
    le32 (cmdBody opcode param ++ rest) 4 = param := by
  simp only [le32, byteAt, cmdBody, b16, b32, List.cons_append, List.nil_append, List.getD_cons_succ,
    List.getD_cons_zero, BitVec.toNat_ofNat, Nat.reducePow]
  exact le32_quad param

/-- Reading the opcode field of a Command frame where it was written (R51, R54). -/
theorem le16_cmdBody_opcode (opcode : Half) (param : Long) (rest : List Byte) :
    le16 (cmdBody opcode param ++ rest) 8 = opcode := by
  have h := le16_append ([hdrRsp0, hdrRsp1] ++ b16 devIdWord ++ b32 param) rest opcode 8 rfl
  rwa [← cmdBody] at h

theorem le16_cmdBody_devId (opcode : Half) (param : Long) (rest : List Byte) :
    le16 (cmdBody opcode param ++ rest) 2 = devIdWord := rfl

/-- Reading the device id of a Data frame where it was written (R53, R54). -/
theorem le16_datBody_devId (d : Half) (payload rest : List Byte) :
    le16 (datBody d payload ++ rest) 2 = d := by
  have h := le16_append [hdrDat0, hdrDat1] (payload ++ rest) d 2 rfl
  rwa [← List.append_assoc, ← datBody] at h

theorem decodeRx_response (d p r st c : Half) :
    decodeRx (rspBody d p r st ++ b16 c) = .ok (decodeRsp (rspBody d p r st ++ b16 c)) := by
  simp [decodeRx, rspLen]

theorem decodeRx_data (d c : Half) (payload : List Byte) :
    decodeRx (datBody d payload ++ b16 c) = .ok (.dat d payload c) := by
  simp [decodeRx, datOvh, decodeDat, dataPacket_body]

theorem decodeTx_encCmd (opcode : Half) (param : Long) :
    decodeTx (encCmd opcode param) = .ok (.cmd opcode param) := by
  have hok : checksumOk (encCmd opcode param) = true := checksumOk_withChecksum _
  rw [encCmd, withChecksum] at hok ⊢
  simp [decodeTx, rspLen, le16_cmdBody_devId, le16_cmdBody_opcode, le32_cmdBody, hok]

theorem decodeTx_encDat (payload : List Byte) :
    decodeTx (encDat payload) = .ok (.dat devIdWord payload (sum16 (datBody devIdWord payload))) := by
  have hok : checksumOk (encDat payload) = true := checksumOk_withChecksum _
  rw [encDat, withChecksum] at hok ⊢
  simp [decodeTx, datOvh, le16_datBody_devId, hok, decodeDat, dataPacket_body]

theorem isTxFrame_encCmd (opcode : Half) (param : Long) : isTxFrame (encCmd opcode param) = true := by
  have hok : checksumOk (encCmd opcode param) = true := checksumOk_withChecksum _
  rw [encCmd, withChecksum] at hok ⊢
  simp [isTxFrame, rspLen, le16_cmdBody_devId, hok]

theorem isTxFrame_encDat (payload : List Byte) : isTxFrame (encDat payload) = true := by
  have hok : checksumOk (encDat payload) = true := checksumOk_withChecksum _
  rw [encDat, withChecksum] at hok ⊢
  simp [isTxFrame, datOvh, le16_datBody_devId, hok]

/-- The checksum of a built Data frame as the sum over the payload (R106). -/
theorem sum16_datBody_devIdWord (payload : List Byte) :
    sum16 (datBody devIdWord payload) = BitVec.ofNat 16 (0x100 + (payload.map BitVec.toNat).sum) := by
  rw [sum16, byteSum_datBody_devIdWord]

/-- Settles O1: a frame's fields are read back where its layout wrote them, and the row is fixed by its checksum and
status; a port's event decodes by its port or select. -/
theorem encodeDecodeRoundTrip : Obligations.EncodeDecodeRoundTrip := by
  intro i w hwf hw
  cases i with
  | cmd opcode param => cases hw; exact decodeTx_encCmd opcode param
  | rspAck d p r =>
    cases hw
    rw [decode, withChecksum, decodeRx_response, decodeRsp_body, if_pos rfl, if_pos rfl]
  | rspNack d p r =>
    cases hw
    have hne : nackWord ≠ ackWord := by decide
    rw [decode, withChecksum, decodeRx_response, decodeRsp_body, if_pos rfl, if_neg hne, if_pos rfl]
  | rspOther d p r st =>
    cases hw
    obtain ⟨hack, hnack⟩ : st ≠ ackWord ∧ st ≠ nackWord := by simpa [Instr.wf] using hwf
    rw [decode, withChecksum, decodeRx_response, decodeRsp_body, if_pos rfl, if_neg hack, if_neg hnack]
  | rspBadsum d p r st c =>
    cases hw
    have hc : c ≠ sum16 (rspBody d p r st) := by simpa [Instr.wf] using hwf
    rw [decode, decodeRx_response, decodeRsp_body, if_neg hc]
  | dat d payload c => cases hw; exact decodeRx_data d c payload
  | sendCmd | sendData | recvData | reqReserved | feed | dataTimeout | cmdTimeout | reset => cases hw; rfl
  | extract | expect | unexpect | txWrite => cases hw

/-- Settles O9: a built frame passes the TX stream's test, and its fields are read back from it. -/
theorem builtFramesDecode : Obligations.BuiltFramesDecode := by
  refine ⟨fun opcode param => ⟨isTxFrame_encCmd opcode param, decodeTx_encCmd opcode param⟩, fun payload => ?_⟩
  rw [← sum16_datBody_devIdWord]
  exact ⟨isTxFrame_encDat payload, decodeTx_encDat payload, decodeRx_data devIdWord _ payload⟩

/-- Settles O5. -/
theorem requestSelectDecodes : Obligations.RequestSelectDecodes := fun _ _ _ _ => ⟨rfl, rfl, rfl, rfl⟩

/-- Settles O6: each frame is evaluated by the decoder. -/
theorem sampleFramesDecode : Obligations.SampleFramesDecode := ⟨rfl, rfl, rfl, rfl, rfl, rfl⟩

/-! ### What a decoded frame looks like -/

/-- A received Response candidate is re-encoded from its row (R81). -/
theorem encode_decodeRsp (d p r st c : Half) :
    encode (decodeRsp (rspBody d p r st ++ b16 c)) = some (.rxFrame (rspBody d p r st ++ b16 c)) := by
  rw [decodeRsp_body]
  by_cases hc : c = sum16 (rspBody d p r st)
  · subst hc
    rw [if_pos rfl]
    split
    · next hst => rw [hst]; rfl
    · split
      · next hst => rw [hst]; rfl
      · rfl
  · rw [if_neg hc]; rfl

/-- Settles O3: an accepted frame is a body and a checksum of its kind, from which its row is re-encoded. -/
theorem receivedFrameReencodesToItself : Obligations.ReceivedFrameReencodesToItself := by
  intro f i h
  rcases decodeRx_cases h with ⟨hk, hl, rfl⟩ | ⟨hk, hl, rfl⟩
  · obtain ⟨d, p, r, st, c, rfl⟩ := response_shape hk hl
    exact encode_decodeRsp d p r st c
  · obtain ⟨d, payload, c, rfl, _⟩ := data_shape hk hl
    rw [decodeDat, dataPacket_body]
    rfl

/-- A frame of the TX stream is a whole Command or Data frame with the fixed device id and a right checksum (R51, R53,
R61). -/
theorem decodeTx_cases {f : List Byte} {i : Instr} (h : decodeTx f = .ok i) :
    le16 f 2 = devIdWord ∧ checksumOk f = true ∧
    ((headerKind f = some .response ∧ f.length = 12 ∧ i = .cmd (le16 f 8) (le32 f 4)) ∨
     (headerKind f = some .data ∧ 6 ≤ f.length ∧ i = decodeDat f)) := by
  unfold decodeTx at h
  split at h
  · cases h
  · split at h
    · cases h
    · next hk =>
      split_ifs at h with hl hd hc
      cases h
      exact ⟨not_not.mp hd, hc, .inl ⟨hk, not_not.mp hl, rfl⟩⟩
    · next hk =>
      split_ifs at h with hl hd hc
      cases h
      exact ⟨not_not.mp hd, hc, .inr ⟨hk, Nat.le_of_not_lt hl, rfl⟩⟩

/-- Settles O4: the encoder's four empty rows; every decoder answers a row that has an encoding. -/
theorem internalOperationsHaveNoEncoding : Obligations.InternalOperationsHaveNoEncoding := by
  intro i
  refine ⟨by cases i <;> simp [encode], fun hnone w hw => ?_⟩
  have hsome : ∃ v, encode i = some v := by
    cases w with
    | input p =>
      cases hw
      cases p with
      | req r => simp only [decodeInput, decodeRequest]; split_ifs <;> exact ⟨_, rfl⟩
      | rx | tmrData | tmrCmd | rst => exact ⟨_, rfl⟩
    | rxFrame f => exact ⟨_, receivedFrameReencodesToItself f i hw⟩
    | txFrame f =>
      obtain ⟨_, _, ⟨_, _, rfl⟩ | ⟨_, _, rfl⟩⟩ := decodeTx_cases hw <;> exact ⟨_, rfl⟩
  obtain ⟨v, hv⟩ := hsome
  rw [hnone] at hv
  cases hv

theorem take_two_of_response {f : List Byte} (hk : headerKind f = some .response) : f.take 2 = [0x55, 0xAA] := by
  obtain ⟨rest, rfl⟩ := headerKind_eq_response.mp hk
  rfl

theorem take_two_of_data {f : List Byte} (hk : headerKind f = some .data) : f.take 2 = [0x5A, 0xA5] := by
  obtain ⟨rest, rfl⟩ := headerKind_eq_data.mp hk
  rfl

/-- The fixed device id in the bytes of a frame (R54, R61). -/
theorem take_four_of_devIdWord {f : List Byte} (hl : 4 ≤ f.length) (hd : le16 f 2 = devIdWord) :
    f.take 4 = f.take 2 ++ [0x01, 0x00] := by
  match f, hl with
  | a :: b :: x :: y :: rest, _ =>
    have hxy : [x, y] = b16 devIdWord := by
      rw [← hd]
      exact (b16_of_bytes x y).symm
    rw [b16_devIdWord] at hxy
    cases hxy
    rfl

/-- The validity test of a Response candidate reads the sum of its first ten bytes (R75). -/
theorem checksumOk_iff_of_length_twelve {f : List Byte} (hl : f.length = 12) :
    checksumOk f = true ↔ sum16 (f.take 10) = le16 f 10 := by
  simp [checksumOk, checksumOf, storedChecksum, hl]

/-- The fields of a Data row stand at their offsets (R53). -/
theorem decodeDat_fields {f : List Byte} (hl : 6 ≤ f.length) :
    ∃ payload, decodeDat f = .dat (le16 f 2) payload (le16 f (f.length - 2)) ∧
      f.length = payload.length + 6 ∧ payload = (f.drop 4).take payload.length := by
  have hlen : (slice f 4 (f.length - 2)).length = f.length - 2 - 4 := by simp [slice]
  refine ⟨slice f 4 (f.length - 2), rfl, by omega, ?_⟩
  rw [hlen, slice, List.drop_take]

/-- The row of a Response candidate, read off the bytes (R58, R68). -/
theorem decodeRsp_cases {f : List Byte} (hl : f.length = 12) :
    (sum16 (f.take 10) = le16 f 10 ∧ le16 f 8 = 0x0030 ∧ decodeRsp f = .rspAck (le16 f 2) (le16 f 4) (le16 f 6)) ∨
    (sum16 (f.take 10) = le16 f 10 ∧ le16 f 8 = 0x0031 ∧ decodeRsp f = .rspNack (le16 f 2) (le16 f 4) (le16 f 6)) ∨
    (sum16 (f.take 10) = le16 f 10 ∧ le16 f 8 ≠ 0x0030 ∧ le16 f 8 ≠ 0x0031 ∧
      decodeRsp f = .rspOther (le16 f 2) (le16 f 4) (le16 f 6) (le16 f 8)) ∨
    (sum16 (f.take 10) ≠ le16 f 10 ∧
      decodeRsp f = .rspBadsum (le16 f 2) (le16 f 4) (le16 f 6) (le16 f 8) (le16 f 10)) := by
  have hok := checksumOk_iff_of_length_twelve hl
  by_cases hc : sum16 (f.take 10) = le16 f 10
  · by_cases hack : le16 f 8 = ackWord
    · exact .inl ⟨hc, hack, by simp [decodeRsp, responsePacket, hok.mpr hc, hack]⟩
    · by_cases hnack : le16 f 8 = nackWord
      · exact .inr (.inl ⟨hc, hnack, by simp [decodeRsp, responsePacket, hok.mpr hc, hnack, ackWord, nackWord]⟩)
      · exact .inr (.inr (.inl ⟨hc, hack, hnack, by
          simp [decodeRsp, responsePacket, hok.mpr hc, hack, hnack]⟩))
  · exact .inr (.inr (.inr ⟨hc, by simp [decodeRsp, responsePacket, mt hok.mp hc]⟩))

/-- The row a Response candidate is decoded as is well-formed (R68). -/
theorem decodeRsp_wf (d p r st c : Half) : (decodeRsp (rspBody d p r st ++ b16 c)).wf = true := by
  rw [decodeRsp_body]
  split
  · split
    · rfl
    · split
      · rfl
      · next hack hnack => simp [Instr.wf, hack, hnack]
  · next hc => simp [Instr.wf, hc]

theorem decode_wf {w : Wire} {i : Instr} (h : decode w = .ok i) : i.wf = true := by
  cases w with
  | input p =>
    cases h
    cases p with
    | req r => simp only [decodeInput, decodeRequest]; split_ifs <;> rfl
    | rx | tmrData | tmrCmd | rst => rfl
  | rxFrame f =>
    rcases decodeRx_cases h with ⟨hk, hl, rfl⟩ | ⟨_, _, rfl⟩
    · obtain ⟨d, p, r, st, c, rfl⟩ := response_shape hk hl
      exact decodeRsp_wf d p r st c
    · rfl
  | txFrame f => obtain ⟨_, _, ⟨_, _, rfl⟩ | ⟨_, _, rfl⟩⟩ := decodeTx_cases h <;> rfl

/-- Settles O2: the row of an accepted frame is read off its bytes, kind by kind. -/
theorem decodedInstructionIsWellFormed : Obligations.DecodedInstructionIsWellFormed := by
  refine ⟨fun w i h => decode_wf h, fun f i h => ?_, fun f i h => ?_⟩
  · rcases decodeRx_cases h with ⟨hk, hl, rfl⟩ | ⟨hk, hl, rfl⟩
    · have hhead := take_two_of_response hk
      rcases decodeRsp_cases hl with ⟨hc, hst, e⟩ | ⟨hc, hst, e⟩ | ⟨hc, hack, hnack, e⟩ | ⟨hc, e⟩ <;> rw [e]
      · exact ⟨⟨hhead, hl⟩, ⟨rfl, rfl, rfl⟩, hst, hc⟩
      · exact ⟨⟨hhead, hl⟩, ⟨rfl, rfl, rfl⟩, hst, hc⟩
      · exact ⟨⟨hhead, hl⟩, ⟨rfl, rfl, rfl⟩, rfl, hack, hnack, hc⟩
      · exact ⟨⟨hhead, hl⟩, ⟨rfl, rfl, rfl⟩, rfl, rfl, hc⟩
    · obtain ⟨payload, e, hlen, hpay⟩ := decodeDat_fields hl
      rw [e]
      exact ⟨take_two_of_data hk, hlen, rfl, hpay, rfl⟩
  · obtain ⟨hdev, hok, ⟨hk, hl, rfl⟩ | ⟨hk, hl, rfl⟩⟩ := decodeTx_cases h
    · refine ⟨?_, hl, rfl, rfl, (checksumOk_iff_of_length_twelve hl).mp hok⟩
      rw [take_four_of_devIdWord (by omega) hdev, take_two_of_response hk]
      rfl
    · obtain ⟨payload, e, hlen, hpay⟩ := decodeDat_fields hl
      rw [e]
      refine ⟨?_, hlen, hdev, hpay, rfl, of_decide_eq_true hok⟩
      rw [take_four_of_devIdWord (by omega) hdev, take_two_of_data hk]
      rfl

/-! ### The checksum -/

/-- The checksum sees a single changed byte: two bytes differ by less than 65536 (R84 (e)). -/
theorem sum16_ne_of_changed_byte (before behind : List Byte) {x y : Byte} (hxy : x ≠ y) :
    sum16 (before ++ x :: behind) ≠ sum16 (before ++ y :: behind) := by
  intro h
  have hmod := congrArg BitVec.toNat h
  simp only [sum16, byteSum_append, byteSum_cons, BitVec.toNat_ofNat] at hmod
  have hx := x.isLt
  have hy := y.isLt
  exact hxy (BitVec.eq_of_toNat_eq (by omega))

/-- Settles O10: a sum does not see the order of its terms; a changed byte changes it by less than its modulus. -/
theorem checksumIgnoresOrderAndSeesOneByte : Obligations.ChecksumIgnoresOrderAndSeesOneByte := by
  refine ⟨fun a b hab => ?_, fun before behind x y hxy => sum16_ne_of_changed_byte before behind hxy⟩
  rw [sum16, sum16, byteSum_eq_sum_map, byteSum_eq_sum_map, (hab.map BitVec.toNat).sum_eq]

/-- Settles O58. -/
theorem completionCodes : Obligations.CompletionCodes := fun _ _ _ => rfl

end Sys2Proof.Machine
end

section
/-! PROOFS. One operation at a time: the next state of every row, request, timer event and micro-operation, and what the
fault latch lets through (41_command.md, 42_data.md, 60_exceptions.md, 70_reset_and_hazards.md). -/

namespace Sys2Proof.Machine

/-! ### The two resolutions, slot by slot -/

theorem settleCmd_of_empty (c : Completion) {s : State} (he : s.rspSlot = .empty) : settleCmd c s = s := by
  simp [settleCmd, he]

theorem settleDat_of_empty (c : Completion) {s : State} (he : s.datSlot = .empty) : settleDat c s = s := by
  simp [settleDat, he]

/-- Accepting a Response settles the pending command by its status word (R94 to R96). -/
theorem acceptResponse_of_pending (p : ResponsePacket) {s : State} (hp : s.rspSlot = .pending) :
    acceptResponse p s = { s with
      rspSlot := .empty
      cplLog := s.cplLog ++
        [if p.status = 0x0030 then .cmdOk p.param
         else if p.status = 0x0031 then .cmdNack p.param
         else .cmdBadStatus p.status p.param] } := by
  simp only [acceptResponse, emitRsp, ackWord, nackWord, settleCmd_of_pending _ hp]
  split_ifs <;> rfl

/-- A Response nobody waits for is dropped (R83). -/
theorem acceptResponse_of_empty (p : ResponsePacket) {s : State} (he : s.rspSlot = .empty) :
    acceptResponse p s = s := by
  obtain ⟨c, _, h⟩ := emitRsp_settles p s
  rw [acceptResponse, h, settleCmd_of_empty c he]

/-- Accepting a Data frame settles the pending receive with its payload (R78, R110). -/
theorem acceptData_of_pending (p : DataPacket) {s : State} (hp : s.datSlot = .pending) :
    acceptData p s = { s with
      expLen := if s.cfg.keepLenAfterData then s.expLen else .unknown
      datSlot := .empty
      cplLog := s.cplLog ++ [.datOk p.payload] } := by
  by_cases hk : s.cfg.keepLenAfterData = true <;>
    simp [acceptData, emitDat, settleDat, hk, hp, unexpectLen, complete, setDatSlot]

/-- A Data frame nobody waits for costs the expectation alone (R78, R83). -/
theorem acceptData_of_empty (p : DataPacket) {s : State} (he : s.datSlot = .empty) :
    acceptData p s = { s with expLen := if s.cfg.keepLenAfterData then s.expLen else .unknown } := by
  by_cases hk : s.cfg.keepLenAfterData = true
  · simp [acceptData, emitDat, hk, settleDat_of_empty _ he]
  · have hu : (unexpectLen s).datSlot = .empty := he
    rw [acceptData, emitDat, if_neg hk, if_neg hk, settleDat_of_empty _ hu]
    rfl

/-- A Data candidate with its right checksum is accepted (R75). -/
theorem exec_dat_of_match (d : Half) (payload : List Byte) {s : State} (hf : s.fault = none) :
    exec (.dat d payload (sum16 (datBody d payload))) s
      = .next (acceptData ⟨d, payload, sum16 (datBody d payload)⟩ s) := by
  have hjudge : judgeDat ⟨d, payload, sum16 (datBody d payload)⟩ s
      = acceptData ⟨d, payload, sum16 (datBody d payload)⟩ s := if_pos rfl
  rw [← hjudge]
  exact served_of_noFault _ hf

/-- Settles O20. -/
theorem nackSettlesTheCommand : Obligations.NackSettlesTheCommand := by
  intro d p r s hf hp
  rw [← settleCmd_of_pending (.cmdNack p) hp]
  exact served_of_noFault _ hf

/-- Settles O21: the row's status is neither of the two that have rows of their own. -/
theorem otherStatusSettlesTheCommand : Obligations.OtherStatusSettlesTheCommand := by
  intro d p r st s hf hp hack hnack
  have h := acceptResponse_of_pending ⟨d, p, r, st, sum16 (rspBody d p r st)⟩ hp
  rw [if_neg hack, if_neg hnack] at h
  rw [← h]
  exact served_of_noFault _ hf

/-- Settles O22. -/
theorem dataFrameSettlesTheReceive : Obligations.DataFrameSettlesTheReceive := by
  intro d payload s hf hp
  rw [exec_dat_of_match d payload hf, acceptData_of_pending _ hp]

/-! ### `SEND_CMD`, `SEND_DATA` and `RECV_DATA`, branch by branch -/

theorem sendCmd_of_pending (opcode : Half) (param : Long) {s : State} (hp : s.rspSlot = .pending) :
    sendCmd opcode param s = complete .cmdReuse s := by
  simp [sendCmd, hp]

theorem sendCmd_of_ok (opcode : Half) (param : Long) {s : State} (he : s.rspSlot = .empty) (ha : txAnswer s = .ok) :
    sendCmd opcode param s = setRspSlot .pending (txWrite (encCmd opcode param) s) := by
  simp [sendCmd, he, ha]

theorem sendCmd_of_fail (opcode : Half) (param : Long) {s : State} (he : s.rspSlot = .empty)
    (ha : txAnswer s = .fail) : sendCmd opcode param s = complete .cmdTxErr (txWrite (encCmd opcode param) s) := by
  simp [sendCmd, he, ha]

theorem sendData_of_long {payload : List Byte} {s : State} (hl : s.cfg.lenMax - 6 < payload.length) :
    sendData payload s = complete .sndInvalid s := by
  simp [sendData, payloadTooLong, datOvh, hl]

/-- A payload in range is written, and the transport's answer is the completion (R105). -/
theorem sendData_of_fits {payload : List Byte} {s : State} (hl : payload.length ≤ s.cfg.lenMax - 6) :
    sendData payload s = complete (match txAnswer s with | .ok => .sndOk | .fail => .sndTxErr)
      (txWrite (encDat payload) s) := by
  have hshort : payloadTooLong payload s = false := decide_eq_false (Nat.not_lt_of_le hl)
  cases ha : txAnswer s <;> simp [sendData, hshort, ha]

theorem recvData_of_pending (n : Half) {s : State} (hp : s.datSlot = .pending) :
    recvData n s = complete .datReuse s := by
  simp [recvData, hp]

theorem recvData_of_outOfRange {n : Half} {s : State} (he : s.datSlot = .empty)
    (hr : n.toNat < 6 ∨ s.cfg.lenMax < n.toNat) : recvData n s = complete .datInvalid s := by
  have hout : lengthInRange n s = false := by
    simp only [lengthInRange, Bool.and_eq_false_iff, decide_eq_false_iff_not, Nat.not_le]
    exact hr
  simp [recvData, he, hout]

theorem recvData_of_inRange {n : Half} {s : State} (he : s.datSlot = .empty) (hlo : 6 ≤ n.toNat)
    (hhi : n.toNat ≤ s.cfg.lenMax) : recvData n s = setDatSlot .pending (expectLen n.toNat s) := by
  simp [recvData, he, lengthInRange, lenMin, hlo, hhi]

theorem exec_sendCmd (opcode : Half) (param : Long) {s : State} (hf : s.fault = none) :
    exec (.sendCmd opcode param) s = .next (sendCmd opcode param s) := served_of_noFault _ hf

theorem exec_sendData (payload : List Byte) {s : State} (hf : s.fault = none) :
    exec (.sendData payload) s = .next (sendData payload s) := served_of_noFault _ hf

theorem exec_recvData (n : Half) {s : State} (hf : s.fault = none) :
    exec (.recvData n) s = .next (recvData n s) := served_of_noFault _ hf

theorem exec_txWrite (frame : List Byte) {s : State} (hf : s.fault = none) :
    exec (.txWrite frame) s = .next (txWrite frame s) := served_of_noFault _ hf

/-- Settles O27. -/
theorem sendCommandWritesAndArms : Obligations.SendCommandWritesAndArms := by
  intro opcode param s hf he ha
  rw [exec_sendCmd _ _ hf, sendCmd_of_ok _ _ he ha, txWrite, ha]
  rfl

theorem serveAll_of_next {i : Instr} {rest : List Instr} {s t : State} (h : exec i s = .next t) :
    serveAll (i :: rest) s = serveAll rest t := by
  rw [serveAll, h]

theorem serveAll_singleton (i : Instr) (s : State) : serveAll [i] s = exec i s := by
  rw [serveAll]
  cases exec i s <;> rfl

/-- Settles O28: the refused request leaves the slot pending for the ACK behind it. -/
theorem secondCommandIsRefused : Obligations.SecondCommandIsRefused := by
  intro opcode param s hf hp
  have hrefuse : exec (.sendCmd opcode param) s = .next { s with cplLog := s.cplLog ++ [.cmdReuse] } := by
    rw [exec_sendCmd _ _ hf, sendCmd_of_pending _ _ hp]
    rfl
  refine ⟨hrefuse, fun d p r => ?_⟩
  rw [serveAll_of_next hrefuse, serveAll_singleton]
  simpa using exec_rspAck_of_pending d p r (s := { s with cplLog := s.cplLog ++ [.cmdReuse] }) hf hp

/-- Settles O29. -/
theorem failedCommandWriteIsReported : Obligations.FailedCommandWriteIsReported := by
  intro opcode param s hf he ha
  rw [exec_sendCmd _ _ hf, sendCmd_of_fail _ _ he ha, txWrite, ha]
  rfl

/-- Settles O30. -/
theorem sendDataCompletesAtOnce : Obligations.SendDataCompletesAtOnce := by
  intro payload s hf
  rw [exec_sendData payload hf]
  refine ⟨fun hl => ?_, fun hl => ?_⟩
  · rw [sendData_of_long hl]; rfl
  · rw [sendData_of_fits hl]; rfl

/-- Settles O31. -/
theorem receiveDataArms : Obligations.ReceiveDataArms := by
  intro n s hf he hlo hhi
  rw [exec_recvData n hf, recvData_of_inRange he hlo hhi]
  rfl

/-- Settles O32. -/
theorem receiveDataRefusals : Obligations.ReceiveDataRefusals := by
  intro n s hf
  rw [exec_recvData n hf]
  refine ⟨fun hp => ?_, fun he hr => ?_⟩
  · rw [recvData_of_pending n hp]; rfl
  · rw [recvData_of_outOfRange he hr]; rfl

/-- Settles O33. -/
theorem reservedRequestIsIllegal : Obligations.ReservedRequestIsIllegal :=
  fun _ hf => served_of_noFault (complete .illegalOp) hf

/-- Settles O40. -/
theorem framesAreWrittenWhole : Obligations.FramesAreWrittenWhole := by
  intro s hf
  exact ⟨fun frame => exec_txWrite frame hf, fun opcode param => ⟨rfl, exec_txWrite (encCmd opcode param) hf⟩⟩

/-- Settles O39. -/
theorem expectedLengthMicroOperations : Obligations.ExpectedLengthMicroOperations :=
  fun n _ hf => ⟨served_of_noFault (expectLen n.toNat) hf, served_of_noFault unexpectLen hf⟩

/-! ### Timers, reset and the fault latch -/

theorem dataTimerArmed_eq_false_iff {s : State} : dataTimerArmed s = false ↔ s.datSlot = .empty := by
  rcases slot_empty_or_pending s.datSlot with h | h <;> simp [dataTimerArmed, datPending, h]

theorem cmdTimerArmed_eq_false_iff {s : State} :
    cmdTimerArmed s = false ↔ s.cfg.tCmd = none ∨ s.rspSlot = .empty := by
  rcases slot_empty_or_pending s.rspSlot with h | h <;> simp [cmdTimerArmed, rspPending, h]

/-- `DATA_TIMEOUT` on an unfaulted block, by its timer (R111). -/
theorem exec_dataTimeout {s : State} (hf : s.fault = none) :
    exec .dataTimeout s = if dataTimerArmed s
      then .next (complete .datTimeout (unexpectLen (setDatSlot .empty s))) else .refused .notEnabled := by
  have hgate : exec .dataTimeout s = execDataTimeout s := rfl
  simp [hgate, execDataTimeout, faulted, hf]

/-- `CMD_TIMEOUT` on an unfaulted block, by its timer (R98). -/
theorem exec_cmdTimeout {s : State} (hf : s.fault = none) :
    exec .cmdTimeout s = if cmdTimerArmed s
      then .next (complete .cmdTimeout (setRspSlot .empty s)) else .refused .notEnabled := by
  have hgate : exec .cmdTimeout s = execCmdTimeout s := rfl
  simp [hgate, execCmdTimeout, faulted, hf]

/-- Settles O35. -/
theorem dataTimeoutSettlesTheReceive : Obligations.DataTimeoutSettlesTheReceive := by
  intro s hf
  rw [exec_dataTimeout hf]
  refine ⟨fun hp => ?_, fun he => ?_⟩
  · have harmed : dataTimerArmed s = true := by simp [dataTimerArmed, datPending, hp]
    rw [if_pos harmed]
    rfl
  · rw [dataTimerArmed_eq_false_iff.mpr he]
    rfl

/-- Settles O36. -/
theorem commandTimeoutSettlesTheCommand : Obligations.CommandTimeoutSettlesTheCommand := by
  intro s hf
  rw [exec_cmdTimeout hf]
  refine ⟨fun ht hp => ?_, fun hoff => ?_⟩
  · have harmed : cmdTimerArmed s = true := by
      rw [← Bool.not_eq_false, cmdTimerArmed_eq_false_iff]
      simp [ht, hp]
    rw [if_pos harmed]
    rfl
  · rw [cmdTimerArmed_eq_false_iff.mpr hoff]
    rfl

/-- Settles O37. -/
theorem resetRestoresTheBlock : Obligations.ResetRestoresTheBlock := fun _ => rfl

/-- Settles O38. -/
theorem resetValues : Obligations.ResetValues := ⟨rfl, rfl, rfl, rfl, rfl, rfl, rfl, rfl⟩

/-- Settles O45. -/
theorem resetMeetsTheInvariant : Obligations.ResetMeetsTheInvariant := ⟨rfl, rfl, rfl, rfl, rfl⟩

/-- The latch lets nothing but `RESET` through (R152). -/
theorem exec_of_fault {i : Instr} {s : State} (hf : s.fault ≠ none) (hi : i ≠ .reset) : exec i s = .next s := by
  have hfaulted : faulted s = true := Option.isSome_iff_ne_none.mpr hf
  cases i with
  | reset => exact absurd rfl hi
  | dataTimeout => exact if_pos hfaulted
  | cmdTimeout => exact if_pos hfaulted
  | _ => exact served_of_fault _ hf

/-- Settles O43. -/
theorem faultedBlockServesOnlyReset : Obligations.FaultedBlockServesOnlyReset :=
  fun _ s hf => ⟨exec_of_fault hf, resetBlock s, rfl, rfl⟩

end Sys2Proof.Machine
end

section
/-! PROOFS. The extraction rule: when a pass waits, what an accepted or dropped candidate leaves, and what holds once
extraction has ended (R22, R42, R70 to R86). -/

namespace Sys2Proof.Machine

/-! ### One pass -/

theorem extractPass_of_short {s : State} {kind : FrameKind} {need : Nat} (hc : classify s = some (kind, need))
    (hl : s.buf.length < need) : extractPass s = .wait := by
  simp [extractPass, hc, hl]

theorem extractPass_of_complete {s : State} {kind : FrameKind} {need : Nat} (hc : classify s = some (kind, need))
    (hl : need ≤ s.buf.length) : extractPass s = judge kind (s.buf.take need) (memDrop need s) := by
  simp [extractPass, hc, Nat.not_lt.mpr hl, memRead]

/-- A complete candidate of either kind whose checksum fails is dropped with everything buffered (R76). -/
theorem extractPass_of_mismatch {s : State} {kind : FrameKind} {need : Nat} (hc : classify s = some (kind, need))
    (hl : need ≤ s.buf.length) (hbad : checksumOk (s.buf.take need) = false) :
    extractPass s = .dropped { s with buf := [], expLen := .unknown } := by
  simp only [extractPass_of_complete hc hl, judge, hbad, Bool.false_eq_true, if_false]
  rfl

/-- A verdict never makes the loop wait (R75). -/
theorem judge_ne_wait (kind : FrameKind) (cand : List Byte) (s : State) : judge kind cand s ≠ .wait := by
  rcases judge_cases kind cand s with ⟨_, _, h⟩ | ⟨_, _, h⟩ | ⟨_, h⟩ <;> simp [h]

/-- A pass waits exactly while what stands at the head is not complete (R72, R73). -/
theorem extractPass_eq_wait_iff {s : State} :
    extractPass s = .wait ↔ ∀ kind need, classify s = some (kind, need) → s.buf.length < need := by
  constructor
  · intro hw kind need hc
    by_contra hl
    rw [extractPass_of_complete hc (Nat.le_of_not_lt hl)] at hw
    exact judge_ne_wait _ _ _ hw
  · intro h
    match hc : classify s with
    | none => exact extractPass_of_unclassified hc
    | some (kind, need) => exact extractPass_of_short hc (h kind need hc)

/-- A pass that goes on has accepted the complete candidate at the head (R74, R75). -/
theorem candidate_of_accepted {s t : State} (h : extractPass s = .accepted t) :
    ∃ kind need, classify s = some (kind, need) ∧ need ≤ s.buf.length ∧
      judge kind (s.buf.take need) (memDrop need s) = .accepted t := by
  rcases extractPass_cases s with hw | ⟨kind, need, hc, hl, hj⟩
  · simp [hw] at h
  · exact ⟨kind, need, hc, hl, hj.symm.trans h⟩

/-- A pass that drops has found a wrong checksum in the complete candidate at the head (R75, R76). -/
theorem candidate_of_dropped {s t : State} (h : extractPass s = .dropped t) :
    ∃ kind need, classify s = some (kind, need) ∧ need ≤ s.buf.length ∧ checksumOk (s.buf.take need) = false := by
  rcases extractPass_cases s with hw | ⟨kind, need, hc, hl, hj⟩
  · simp [hw] at h
  · refine ⟨kind, need, hc, hl, ?_⟩
    rcases judge_cases kind (s.buf.take need) (memDrop need s) with ⟨_, _, e⟩ | ⟨_, _, e⟩ | ⟨hbad, _⟩
    · cases h.symm.trans (hj.trans e)
    · cases h.symm.trans (hj.trans e)
    · exact hbad

/-- The drop takes the whole buffer and the expectation, whatever the candidate was (R76). -/
theorem dropped_eq {s t : State} (h : extractPass s = .dropped t) : t = { s with buf := [], expLen := .unknown } := by
  obtain ⟨kind, need, hc, hl, hbad⟩ := candidate_of_dropped h
  cases h.symm.trans (extractPass_of_mismatch hc hl hbad)
  rfl

/-- A Data head is classified by the expectation alone (R72). -/
theorem expLen_of_classify_data {s : State} {n : Nat} (h : classify s = some (.data, n)) : s.expLen = .known n := by
  unfold classify at h
  split at h
  · cases h
  · cases h
  · split at h
    · cases h
    · next he => cases h; exact he

/-- An accepted frame was sliced off and was a Response, or a Data frame that was expected (R72 to R78). -/
theorem accepted_cases {s t : State} (h : extractPass s = .accepted t) :
    ∃ rest, (∃ p, t = acceptResponse p { s with buf := rest }) ∨
      ∃ p n, s.expLen = .known n ∧ t = acceptData p { s with buf := rest } := by
  obtain ⟨kind, need, hc, _, hj⟩ := candidate_of_accepted h
  refine ⟨s.buf.drop need, ?_⟩
  rcases judge_cases kind (s.buf.take need) (memDrop need s) with ⟨_, _, e⟩ | ⟨_, rfl, e⟩ | ⟨_, e⟩ <;>
    cases hj.symm.trans e
  · exact .inl ⟨_, rfl⟩
  · exact .inr ⟨_, need, expLen_of_classify_data hc, rfl⟩

/-- What an accepted Response, an accepted Data frame and a drop keep holds after extraction (R71). -/
theorem extract_induction {P : State → Prop}
    (hrsp : ∀ p rest t, P t → P (acceptResponse p { t with buf := rest }))
    (hdat : ∀ p rest n t, t.expLen = .known n → P t → P (acceptData p { t with buf := rest }))
    (hdrop : ∀ t, P t → P { t with buf := [], expLen := .unknown }) {s : State} (hs : P s) : P (extract s) := by
  refine extractLoop_induction (P := P) (fun t u ht hu => ?_) (fun t u ht hu => ?_) s.buf.length s hs
  · obtain ⟨rest, ⟨p, rfl⟩ | ⟨p, n, he, rfl⟩⟩ := accepted_cases hu
    · exact hrsp p rest t ht
    · exact hdat p rest n t he ht
  · rw [dropped_eq hu]
    exact hdrop t ht

/-! ### The whole extraction -/

/-- Settles O12: in each case the head is unclassified, or classified and too short. -/
theorem extractionWaits : Obligations.ExtractionWaits := by
  intro s hf
  refine ⟨fun hl => exec_extract_of_wait hf (extractPass_of_unclassified
    (classify_of_unknownHeader (headerKind_none_of_short hl))), fun b0 b1 rest hbuf => ?_⟩
  have hdata : b0 = 0x5A ∧ b1 = 0xA5 → headerKind s.buf = some .data := by
    rintro ⟨rfl, rfl⟩
    exact headerKind_eq_data.mpr ⟨rest, hbuf⟩
  refine ⟨fun hr hd => exec_extract_of_wait hf (extractPass_of_unclassified (classify_of_unknownHeader ?_)),
    fun hr hl => exec_extract_of_wait hf (extractPass_of_short (classify_of_response ?_) hl),
    fun hd he => exec_extract_of_wait hf (extractPass_of_unclassified (classify_of_data_unknown (hdata hd) he)),
    fun n hd he hl => exec_extract_of_wait hf (extractPass_of_short (classify_of_data_known (hdata hd) he) hl)⟩
  · rw [hbuf]
    exact headerKind_none_of_unknown rest hr hd
  · obtain ⟨rfl, rfl⟩ := hr
    exact headerKind_eq_response.mpr ⟨rest, hbuf⟩

/-- Every six bytes are worth one pass (R86). -/
theorem extractLoop_of_passes : ∀ (passes : Nat) (s : State), s.expLenInRange = true →
    s.buf.length / 6 ≤ passes → extractLoop passes s = extract s := by
  intro passes
  induction passes with
  | zero =>
    intro s hr hl
    have hwait : extractPass s = .wait := extractPass_eq_wait_iff.mpr fun kind need hc => by
      have h6 := classify_need hr hc
      omega
    rw [extract_of_wait hwait, extractLoop]
  | succ passes ih =>
    intro s hr hl
    rw [extractLoop]
    match hp : extractPass s with
    | .wait => exact (extract_of_wait hp).symm
    | .dropped t => exact (extract_of_dropped hp).symm
    | .accepted t =>
      obtain ⟨hshrink, hrt⟩ := accepted_shrinks hr hp
      rw [extract_of_accepted hr hp]
      exact ih t hrt (by omega)

/-- Settles O14. -/
theorem extractionPassBound : Obligations.ExtractionPassBound := by
  rintro s passes ⟨_, _, hr, _⟩ hl
  exact extractLoop_of_passes passes s hr hl

/-- Extraction goes on until a pass waits (R22, R71). -/
theorem extractPass_extract {s : State} (hr : s.expLenInRange = true) : extractPass (extract s) = .wait := by
  match hp : extractPass s with
  | .wait => rw [extract_of_wait hp, hp]
  | .dropped t =>
    rw [extract_of_dropped hp, dropped_eq hp]
    exact extractPass_of_emptyBuffer rfl
  | .accepted t =>
    obtain ⟨hshrink, hrt⟩ := accepted_shrinks hr hp
    rw [extract_of_accepted hr hp]
    exact extractPass_extract hrt
termination_by s.buf.length
decreasing_by omega

/-! ### `FEED` -/

theorem overflows_eq_false_iff {chunk : List Byte} {s : State} :
    overflows chunk s = false ↔ ∀ cap, s.cfg.bufCap = some cap → s.buf.length + chunk.length ≤ cap := by
  cases hc : s.cfg.bufCap <;> simp [overflows, hc]

theorem overflows_eq_true_iff {chunk : List Byte} {s : State} :
    overflows chunk s = true ↔ ∃ cap, s.cfg.bufCap = some cap ∧ cap < s.buf.length + chunk.length := by
  cases hc : s.cfg.bufCap <;> simp [overflows, hc]

/-- Room for a chunk is room for less (R85). -/
theorem overflows_of_le {chunk chunk' : List Byte} {s t : State} (ho : overflows chunk s = false)
    (hcfg : t.cfg = s.cfg) (hl : t.buf.length + chunk'.length ≤ s.buf.length + chunk.length) :
    overflows chunk' t = false := by
  rw [overflows_eq_false_iff] at ho ⊢
  intro cap hcap
  have := ho cap (by rw [← hcfg]; exact hcap)
  omega

/-- The answer of a `FEED` that fits (R70). -/
theorem exec_feed {chunk : List Byte} {s : State} (hf : s.fault = none) (ho : overflows chunk s = false) :
    exec (.feed chunk) s = .next (extract (memAppend chunk s)) := by
  rw [exec_feed_of_fits hf ho, exec_extract (by simpa using hf)]

/-- A chunk that does not fit latches the fault and is not appended (R85). -/
theorem exec_feed_of_overflow {chunk : List Byte} {s : State} (hf : s.fault = none) (ho : overflows chunk s = true) :
    exec (.feed chunk) s = .next { s with fault := some .bufferOverflow } := by
  have hfeed : feed chunk s = raiseFault .bufferOverflow s := by simp [feed, ho]
  have hserved : exec (.feed chunk) s = .next (feed chunk s) := served_of_noFault _ hf
  rw [hserved, hfeed]
  rfl

/-- Settles O15. -/
theorem feedAppendsThenExtracts : Obligations.FeedAppendsThenExtracts := by
  intro chunk s hf
  refine ⟨fun hcap => ?_, fun cap hcap hl =>
    exec_feed_of_overflow hf (overflows_eq_true_iff.mpr ⟨cap, hcap, hl⟩)⟩
  have ho := overflows_eq_false_iff.mpr hcap
  exact ⟨exec_feed_of_fits hf ho, _, exec_feed hf ho⟩

/-- Settles O16: extraction ends with a pass that waits, and such a pass has an incomplete head. -/
theorem noCompleteFrameLeftAtHead : Obligations.NoCompleteFrameLeftAtHead := by
  rintro chunk s t hf ⟨_, _, hr, _⟩ ho ht
  rw [exec_feed hf ho] at ht
  cases ht
  have hwait := extractPass_eq_wait_iff.mp (extractPass_extract (s := memAppend chunk s) hr)
  exact ⟨fun rest hb => hwait _ _ (classify_of_response (headerKind_eq_response.mpr ⟨rest, hb⟩)),
    fun rest n hb he => hwait _ _ (classify_of_data_known (headerKind_eq_data.mpr ⟨rest, hb⟩) he)⟩

/-! ### What extraction delivers -/

/-- The operations a slot can still settle: one while it is pending (R15, R16). -/
def outstanding (v : Slot) : Nat := if v = .pending then 1 else 0

/-- From `s` to `t` only frames' completions were delivered, and each was paid for with the pending slot it settled
(R42). -/
def DeliversFor (s t : State) : Prop :=
  ∃ delivered, t.cplLog = s.cplLog ++ delivered ∧
    (delivered.filter isResponseCompletion).length + outstanding t.rspSlot = outstanding s.rspSlot ∧
    (delivered.filter isDataCompletion).length + outstanding t.datSlot = outstanding s.datSlot ∧
    ∀ k ∈ delivered, isResponseCompletion k = true ∨ isDataCompletion k = true

theorem DeliversFor.refl (s : State) : DeliversFor s s := ⟨[], by simp⟩

/-- The relation reads the slots and the completions only. -/
theorem DeliversFor.congr {s t u : State} (h : DeliversFor s t) (hr : u.rspSlot = t.rspSlot)
    (hd : u.datSlot = t.datSlot) (hc : u.cplLog = t.cplLog) : DeliversFor s u := by
  rw [DeliversFor, hr, hd, hc]
  exact h

theorem not_isDataCompletion_of_response {c : Completion} (hc : isResponseCompletion c = true) :
    isDataCompletion c = false := by
  cases c <;> simp_all [isResponseCompletion, isDataCompletion]

theorem DeliversFor.settleCmd {s t : State} (h : DeliversFor s t) {c : Completion}
    (hc : isResponseCompletion c = true) : DeliversFor s (settleCmd c t) := by
  rcases settleCmd_cases c t with ⟨hp, e⟩ | ⟨_, e⟩ <;> rw [e]
  · obtain ⟨delivered, hlog, hrsp, hdat, hkind⟩ := h
    refine ⟨delivered ++ [c], by simp [hlog], ?_, ?_, ?_⟩
    · simpa [hc, outstanding, hp] using hrsp
    · simpa [not_isDataCompletion_of_response hc] using hdat
    · simpa [or_imp, forall_and, hc] using hkind
  · exact h

theorem DeliversFor.settleDat {s t : State} (h : DeliversFor s t) (payload : List Byte) :
    DeliversFor s (settleDat (.datOk payload) t) := by
  rcases settleDat_cases (.datOk payload) t with ⟨hp, e⟩ | ⟨_, e⟩ <;> rw [e]
  · obtain ⟨delivered, hlog, hrsp, hdat, hkind⟩ := h
    refine ⟨delivered ++ [.datOk payload], by simp [hlog], ?_, ?_, ?_⟩
    · simpa [isResponseCompletion] using hrsp
    · have hk : isDataCompletion (.datOk payload) = true := rfl
      simpa [hk, outstanding, hp] using hdat
    · simpa [or_imp, forall_and, isDataCompletion] using hkind
  · exact h

theorem DeliversFor.acceptResponse {s t : State} (h : DeliversFor s t) (p : ResponsePacket) :
    DeliversFor s (acceptResponse p t) := by
  obtain ⟨c, hc, e⟩ := emitRsp_settles p t
  rw [Machine.acceptResponse, e]
  exact h.settleCmd hc

theorem DeliversFor.acceptData {s t : State} (h : DeliversFor s t) (p : DataPacket) :
    DeliversFor s (acceptData p t) := by
  unfold Machine.acceptData emitDat
  split
  · exact h.settleDat p.payload
  · have hu : DeliversFor s (unexpectLen t) := h.congr rfl rfl rfl
    exact hu.settleDat p.payload

theorem extract_deliversFor (s : State) : DeliversFor s (extract s) := by
  have hslice (t : State) (rest : List Byte) (ht : DeliversFor s t) : DeliversFor s { t with buf := rest } :=
    ht.congr rfl rfl rfl
  refine extract_induction (P := DeliversFor s) (fun p rest t ht => (hslice t rest ht).acceptResponse p)
    (fun p rest n t _ ht => (hslice t rest ht).acceptData p) (fun t ht => ht.congr rfl rfl rfl) (DeliversFor.refl s)

theorem feed_deliversFor (chunk : List Byte) (s : State) : DeliversFor s (feed chunk s) := by
  unfold feed
  split
  · exact (DeliversFor.refl s).congr rfl rfl rfl
  · exact extract_deliversFor (memAppend chunk s)

/-- Settles O17: each completion of a frame costs the slot it settles. -/
theorem atMostOneSettlementPerSlot : Obligations.AtMostOneSettlementPerSlot := by
  intro chunk s t ht
  have hdel : DeliversFor s t := by
    by_cases hf : s.fault = none
    · have hserved : exec (.feed chunk) s = .next (feed chunk s) := served_of_noFault _ hf
      cases hserved.symm.trans ht
      exact feed_deliversFor chunk s
    · rw [exec_of_fault hf (by simp)] at ht
      cases ht
      exact DeliversFor.refl s
  obtain ⟨delivered, hlog, hrsp, hdat, hkind⟩ := hdel
  exact ⟨delivered, hlog, Nat.le.intro hrsp, Nat.le.intro hdat, hkind⟩

/-! ### A decoded candidate and its row -/

/-- The row of a Response candidate does what the pass does with the candidate (log entry 7). -/
theorem exec_decodeRsp (d p r st c : Half) {s : State} (hf : s.fault = none) :
    exec (decodeRsp (rspBody d p r st ++ b16 c)) s
      = .next (if c = sum16 (rspBody d p r st) then acceptResponse ⟨d, p, r, st, c⟩ s
        else { s with buf := [], expLen := .unknown }) := by
  rw [decodeRsp_body]
  by_cases hc : c = sum16 (rspBody d p r st)
  · simp only [if_pos hc, acceptResponse, emitRsp]
    split
    · exact served_of_noFault _ hf
    · split
      · exact served_of_noFault _ hf
      · next hack hnack =>
        refine (served_of_noFault _ hf).trans ?_
        simp [emitRsp, hack, hnack]
  · rw [if_neg hc, if_neg hc, exec_rspBadsum_of_mismatch hf hc]

/-- The row of a Data candidate does what the pass does with the candidate (log entry 7). -/
theorem exec_dat (d c : Half) (payload : List Byte) {s : State} (hf : s.fault = none) :
    exec (.dat d payload c) s
      = .next (if c = sum16 (datBody d payload) then acceptData ⟨d, payload, c⟩ s
        else { s with buf := [], expLen := .unknown }) := by
  by_cases hc : c = sum16 (datBody d payload)
  · subst hc
    rw [if_pos rfl, exec_dat_of_match d payload hf]
  · rw [if_neg hc, exec_dat_of_mismatch hf hc]

/-- Extraction goes on from where a row left the block, once the pass is the row behind the slice. -/
theorem exec_extract_of_row {s sliced t : State} {ok : Prop} [Decidable ok] {i : Instr} (hf : s.fault = none)
    (hr : s.expLenInRange = true) (ht : t.fault = none)
    (hpass : extractPass s = if ok then .accepted t else .dropped { s with buf := [], expLen := .unknown })
    (hrow : exec i sliced = .next (if ok then t else { s with buf := [], expLen := .unknown })) :
    exec .extract s = serveAll [i, .extract] sliced := by
  rw [exec_extract hf, serveAll_of_next hrow, serveAll_singleton]
  by_cases hok : ok
  · rw [if_pos hok] at hpass ⊢
    rw [extract_of_accepted hr hpass, exec_extract ht]
  · rw [if_neg hok] at hpass ⊢
    rw [extract_of_dropped hpass]
    exact (exec_extract_of_wait (s := { s with buf := [], expLen := .unknown }) hf
      (extractPass_of_emptyBuffer rfl)).symm

/-- Settles O13: the candidate is a body and a checksum, on which pass and row make the same distinction. -/
theorem extractionRunsTheDecodedFrame : Obligations.ExtractionRunsTheDecodedFrame := by
  rintro s kind cand rest i hf ⟨_, _, hr, _⟩ hbuf hclass hdec
  refine ⟨?_, _, exec_extract hf⟩
  rcases decodeRx_cases hdec with ⟨hk, hl, rfl⟩ | ⟨hk, hl, rfl⟩
  · obtain ⟨d, p, r, st, c, rfl⟩ := response_shape hk hl
    obtain ⟨_, _, _, hfault, _⟩ := acceptResponse_frame ⟨d, p, r, st, c⟩ { s with buf := rest }
    exact exec_extract_of_row hf hr (hfault.trans hf) (extractPass_response hbuf) (exec_decodeRsp d p r st c hf)
  · obtain ⟨d, payload, c, rfl, hlen⟩ := data_shape hk hl
    have he : s.expLen = .known (payload.length + 6) := by
      have hkind : headerKind s.buf = some .data := by rw [hbuf, headerKind_append _ (by omega), hk]
      rw [hlen]
      match hexp : s.expLen with
      | .unknown => rw [classify_of_data_unknown hkind hexp] at hclass; cases hclass
      | .known n => rw [classify_of_data_known hkind hexp] at hclass; cases hclass; rfl
    obtain ⟨_, _, _, hfault, _⟩ := acceptData_frame ⟨d, payload, c⟩ { s with buf := rest }
    rw [decodeDat, dataPacket_body]
    exact exec_extract_of_row hf hr (hfault.trans hf) (extractPass_data hbuf he) (exec_dat d c payload hf)

end Sys2Proof.Machine
end

section
/-! PROOFS. Bytes fed to the block: valid frames, an echoed Command, a frame already buffered, corrupted frames, and how
the cut into chunks matters (R39, R44, R62, R83, R84 (e), R116, R170). -/

namespace Sys2Proof.Machine

/-! ### Valid frames fed to an empty buffer -/

theorem memAppend_of_emptyBuffer (chunk : List Byte) {s : State} (hb : s.buf = []) :
    memAppend chunk s = { s with buf := chunk } := by
  simp [memAppend, hb]

/-- A valid Data frame of the expected length fed to an empty buffer is consumed and accepted (R70, R78). -/
theorem exec_feed_of_data {d : Half} {payload : List Byte} {s : State} (hf : s.fault = none) (hb : s.buf = [])
    (he : s.expLen = .known (payload.length + 6)) (ho : overflows (withChecksum (datBody d payload)) s = false) :
    exec (.feed (withChecksum (datBody d payload))) s
      = .next (acceptData ⟨d, payload, sum16 (datBody d payload)⟩ s) := by
  have hhead : (memAppend (withChecksum (datBody d payload)) s).buf
      = datBody d payload ++ b16 (sum16 (datBody d payload)) ++ [] := by
    simp [hb, withChecksum]
  have hback : { memAppend (withChecksum (datBody d payload)) s with buf := [] } = s := by
    simp [memAppend, ← hb]
  have hpass := extractPass_data hhead he
  rw [if_pos rfl, hback] at hpass
  obtain ⟨hbuf, _⟩ := acceptData_frame ⟨d, payload, sum16 (datBody d payload)⟩ s
  rw [exec_feed hf ho, extract_of_accepted_last hpass (hbuf.trans hb)]

/-- Settles O18. -/
theorem fedResponseSettlesTheCommand : Obligations.FedResponseSettlesTheCommand := by
  intro d p r st s hf hb hp ho
  rw [exec_feed_of_response hf hb ho, acceptResponse_of_pending _ hp]

/-- Settles O23: the rows by their resolution on an empty slot, the bytes by the frame's acceptance. -/
theorem unsolicitedPacketsVanish : Obligations.UnsolicitedPacketsVanish := by
  refine ⟨fun d p r s hf he => ?_, fun d payload s hf he => ?_, fun d p r st s hf hb he ho => ?_,
    fun d payload s hf hb he hexp ho => ?_⟩
  · have hdrop (c : Completion) : served (settleCmd c) s = .next s := by
      rw [served_of_noFault _ hf, settleCmd_of_empty c he]
    refine ⟨hdrop _, hdrop _, fun st => ?_⟩
    have hserved := served_of_noFault (acceptResponse ⟨d, p, r, st, sum16 (rspBody d p r st)⟩) hf
    rwa [acceptResponse_of_empty _ he] at hserved
  · rw [exec_dat_of_match d payload hf, acceptData_of_empty _ he]
  · rw [exec_feed_of_response hf hb ho, acceptResponse_of_empty _ he]
  · rw [exec_feed_of_data hf hb hexp ho, acceptData_of_empty _ he]

/-- A Command frame's 32-bit parameter stands where a Response has `param` and `reserved`, low half first (R62). -/
theorem cmdBody_eq_rspBody (opcode : Half) (param : Long) :
    cmdBody opcode param = rspBody devIdWord (param.setWidth 16) (param.extractLsb' 16 16) opcode := by
  have hhalves : b32 param = b16 (param.setWidth 16) ++ b16 (param.extractLsb' 16 16) := by
    simp only [b32, b16, List.cons_append, List.nil_append, List.cons.injEq, and_true]
    refine ⟨?_, ?_, ?_, ?_⟩ <;> apply BitVec.eq_of_toNat_eq <;>
      simp only [BitVec.toNat_ofNat, BitVec.toNat_setWidth, BitVec.extractLsb'_toNat, Nat.shiftRight_eq_div_pow] <;>
      omega
  simp [cmdBody, rspBody, hhalves]

/-- Settles O26: the echo is a valid Response frame. -/
theorem echoedCommandIsTakenForAResponse : Obligations.EchoedCommandIsTakenForAResponse := by
  intro opcode param s hf ho hb hp
  rw [encCmd, cmdBody_eq_rspBody] at ho ⊢
  rw [exec_feed_of_response hf hb ho, acceptResponse_of_pending _ hp]

/-! ### Two frames in one chunk -/

/-- Two accepted frames that leave the buffer empty are the whole extraction, whatever the expectation (R71). -/
theorem extract_of_accepted_twice {s t u : State} (hs : extractPass s = .accepted t) (ht : extractPass t = .accepted u)
    (hl : 2 ≤ s.buf.length) (hb : u.buf = []) : extract s = u := by
  obtain ⟨n, hn⟩ : ∃ n, s.buf.length = n + 2 := ⟨s.buf.length - 2, by omega⟩
  calc extract s = extractLoop n u := by simp [extract, hn, extractLoop, hs, ht]
    _ = u := by cases n <;> simp [extractLoop, extractPass_of_emptyBuffer hb]

/-- A valid Response at the head settles the pending command in one pass (R74, R77, R94 to R96). -/
theorem extractPass_of_pending_response {s : State} {d p r st : Half} {rest : List Byte}
    (hb : s.buf = withChecksum (rspBody d p r st) ++ rest) (hp : s.rspSlot = .pending) :
    extractPass s = .accepted { s with
      buf := rest
      rspSlot := .empty
      cplLog := s.cplLog ++
        [if st = 0x0030 then .cmdOk p else if st = 0x0031 then .cmdNack p else .cmdBadStatus st p] } := by
  rw [extractPass_response hb, if_pos rfl, acceptResponse_of_pending (s := { s with buf := rest }) _ hp]

/-- An awaited Data frame at the head settles the pending receive in one pass (R74, R78, R110). -/
theorem extractPass_of_pending_data {s : State} {d : Half} {payload rest : List Byte}
    (hb : s.buf = withChecksum (datBody d payload) ++ rest) (he : s.expLen = .known (payload.length + 6))
    (hp : s.datSlot = .pending) :
    extractPass s = .accepted { s with
      buf := rest
      expLen := if s.cfg.keepLenAfterData then s.expLen else .unknown
      datSlot := .empty
      cplLog := s.cplLog ++ [.datOk payload] } := by
  rw [extractPass_data hb he, if_pos rfl, acceptData_of_pending (s := { s with buf := rest }) _ hp]

/-- Settles O25: the Response is the first pass, the Data frame behind it the second. -/
theorem responseThenDataInOneChunk : Obligations.ResponseThenDataInOneChunk := by
  intro d p r d' payload s hf hb ho hrsp hdat hexp
  have hhead : (memAppend (withChecksum (rspBody d p r 0x0030) ++ withChecksum (datBody d' payload)) s).buf
      = withChecksum (rspBody d p r 0x0030) ++ withChecksum (datBody d' payload) := by simp [hb]
  have hfirst := extractPass_of_pending_response hhead hrsp
  have hsecond := extractPass_of_pending_data (d := d') (payload := payload) (rest := [])
    (s := { s with
      buf := withChecksum (datBody d' payload)
      rspSlot := .empty
      cplLog := s.cplLog ++ [.cmdOk p] }) (by simp) hexp hdat
  rw [exec_feed hf ho, extract_of_accepted_twice hfirst hsecond (by simp [hb]; omega) rfl]
  simp [hb]

/-! ### A Data frame already buffered -/

/-- `RECV_DATA` of an announced Data frame's length, on a block that can take it (R107). -/
theorem exec_recvData_of_length {len : Nat} {s : State} (hf : s.fault = none) (he : s.datSlot = .empty)
    (h16 : len + 6 ≤ 65535) (hmax : len + 6 ≤ s.cfg.lenMax) :
    exec (.recvData (BitVec.ofNat 16 (len + 6))) s
      = .next { s with expLen := .known (len + 6), datSlot := .pending } := by
  have hn : (BitVec.ofNat 16 (len + 6)).toNat = len + 6 := by
    rw [BitVec.toNat_ofNat]
    omega
  have harm := receiveDataArms (BitVec.ofNat 16 (len + 6)) s hf he
  rw [hn] at harm
  exact harm (by omega) hmax

theorem expLenInRange_of_known {s : State} {n : Nat} (he : s.expLen = .known n) (hlo : 6 ≤ n)
    (hhi : n ≤ s.cfg.lenMax) : s.expLenInRange = true := by
  simp [State.expLenInRange, he, lenMin, hlo, hhi]

/-- A `FEED` extracts an awaited Data frame at the head first, and goes on behind it (R74, R78, R82). -/
theorem exec_feed_of_awaited_data {chunk : List Byte} {s : State} {d : Half} {payload rest : List Byte}
    (hf : s.fault = none) (ho : overflows chunk s = false) (hb : s.buf = withChecksum (datBody d payload) ++ rest)
    (he : s.expLen = .known (payload.length + 6)) (hmax : payload.length + 6 ≤ s.cfg.lenMax)
    (hp : s.datSlot = .pending) :
    exec (.feed chunk) s = .next (extract (memAppend chunk { s with
      buf := rest
      expLen := if s.cfg.keepLenAfterData then s.expLen else .unknown
      datSlot := .empty
      cplLog := s.cplLog ++ [.datOk payload] })) := by
  have hhead : (memAppend chunk s).buf = withChecksum (datBody d payload) ++ (rest ++ chunk) := by simp [hb]
  have hrange : (memAppend chunk s).expLenInRange = true := expLenInRange_of_known he (by omega) hmax
  rw [exec_feed hf ho, extract_of_accepted hrange (extractPass_of_pending_data hhead he hp)]
  rfl

/-- Settles O34: behind `RECV_DATA` the first pass of any `FEED` takes the buffered frame. -/
theorem receiveDataTakesEffectAtTheNextFeed : Obligations.ReceiveDataTakesEffectAtTheNextFeed := by
  intro d payload rest s hf he h16 hmax hb recv delivered
  have hrecv : exec recv s = .next { s with expLen := .known (payload.length + 6), datSlot := .pending } :=
    exec_recvData_of_length hf he h16 hmax
  have hshrink : delivered.buf.length ≤ s.buf.length := by simp [delivered, hb]
  have hfeed (chunk : List Byte) (ho : overflows chunk s = false) :
      serveAll [recv, .feed chunk] s = .next (extract (memAppend chunk delivered)) := by
    have hfirst := exec_feed_of_awaited_data
      (s := { s with expLen := .known (payload.length + 6), datSlot := .pending }) hf ho hb rfl hmax rfl
    rw [← he] at hfirst
    rw [serveAll_of_next hrecv, serveAll_singleton]
    exact hfirst
  have hroom (chunk : List Byte) (ho : overflows chunk s = false) : overflows chunk delivered = false :=
    overflows_of_le ho rfl (Nat.add_le_add_right hshrink chunk.length)
  refine ⟨hrecv, fun chunk ho => ⟨?_, _, hfeed chunk ho, ?_⟩, fun hrest ho => ?_⟩
  · rw [hfeed chunk ho, exec_feed (s := delivered) hf (hroom chunk ho)]
  · exact (extract_frame (memAppend chunk delivered)).2.1
  · have hwait : extractPass (memAppend [] delivered) = .wait :=
      extractPass_of_emptyBuffer (by simp [delivered, hrest])
    rw [hfeed [] ho, extract_of_wait hwait]
    simp [memAppend]

/-! ### Corrupted frames -/

/-- The checksum sees a changed byte wherever it stands (R84 (e)). -/
theorem sum16_set_ne {l : List Byte} {offset : Nat} {b : Byte} (hl : offset < l.length) (hne : l[offset] ≠ b) :
    sum16 (l.set offset b) ≠ sum16 l := by
  have h := sum16_ne_of_changed_byte (l.take offset) (l.drop (offset + 1)) hne.symm
  rw [List.getElem_cons_drop, List.take_append_drop] at h
  rwa [List.set_eq_take_append_cons_drop, if_pos hl]

theorem exists_b16_of_length_two {l : List Byte} (hl : l.length = 2) : ∃ v, l = b16 v := by
  match l, hl with
  | [x, y], _ => exact ⟨_, (b16_of_bytes x y).symm⟩

/-- One changed byte of a frame, in the body or in the checksum, makes the two disagree (R84 (e)). -/
theorem checksumOk_of_changed_byte {body : List Byte} {offset : Nat} {b : Byte} (hl : offset < body.length + 2)
    (hne : (withChecksum body)[offset]? ≠ some b) : checksumOk ((withChecksum body).set offset b) = false := by
  unfold withChecksum at hne ⊢
  by_cases hbody : offset < body.length
  · rw [List.getElem?_append_left hbody, List.getElem?_eq_getElem hbody] at hne
    rw [List.set_append_left _ _ hbody, checksumOk_body]
    exact decide_eq_false (sum16_set_ne hbody fun h => hne (congrArg some h))
  · have hle : body.length ≤ offset := Nat.le_of_not_lt hbody
    obtain ⟨c, hc⟩ := exists_b16_of_length_two (l := (b16 (sum16 body)).set (offset - body.length) b) (by simp)
    rw [List.getElem?_append_right hle] at hne
    rw [List.set_append_right _ _ hle, hc, checksumOk_body]
    refine decide_eq_false fun hsum => hne ?_
    rw [← hsum] at hc
    rw [← hc, List.getElem?_set_self (by simp; omega)]

/-- A byte changed behind the header leaves the header (R56). -/
theorem headerKind_set {f : List Byte} {offset : Nat} (b : Byte) (ho : 2 ≤ offset) :
    headerKind (f.set offset b) = headerKind f := by
  rw [← headerKind_take_two, List.take_set_of_le ho, headerKind_take_two]

/-- A frame with one byte changed behind the header, fed to an empty buffer that classifies it whole, is dropped (R76,
R84 (e)). -/
theorem exec_feed_of_changed_byte {body : List Byte} {offset : Nat} {b : Byte} {s : State} {kind : FrameKind}
    (hf : s.fault = none) (hb : s.buf = []) (ho : overflows (withChecksum body) s = false)
    (hl : offset < body.length + 2) (hne : (withChecksum body)[offset]? ≠ some b)
    (hc : classify { s with buf := (withChecksum body).set offset b } = some (kind, body.length + 2)) :
    exec (.feed ((withChecksum body).set offset b)) s = .next { s with expLen := .unknown } := by
  have hroom : overflows ((withChecksum body).set offset b) s = false := overflows_of_le ho rfl (by simp)
  have hbad : checksumOk (((withChecksum body).set offset b).take (body.length + 2)) = false := by
    rw [List.take_of_length_le (by simp)]
    exact checksumOk_of_changed_byte hl hne
  rw [exec_feed hf hroom, memAppend_of_emptyBuffer _ hb,
    extract_of_dropped (extractPass_of_mismatch hc (by simp) hbad)]
  simp [hb]

/-- Settles O55: behind a kept header the Response is still classified, with its twelve bytes. -/
theorem corruptedResponseIsDropped : Obligations.CorruptedResponseIsDropped := by
  intro d p r st offset b s hf ho hb hlo hhi hne
  refine exec_feed_of_changed_byte hf hb ho hhi hne (classify_of_response ?_)
  rw [headerKind_set b hlo, withChecksum, headerKind_response]

/-- Settles O56: behind a kept header the Data frame is still classified, with the expected length. -/
theorem corruptedDataIsDropped : Obligations.CorruptedDataIsDropped := by
  intro d payload offset b s hf ho hb he hlo hhi hne
  have hlen : (datBody d payload).length + 2 = payload.length + 6 := by simp
  refine exec_feed_of_changed_byte (kind := .data) hf hb ho (by rwa [hlen]) hne ?_
  rw [hlen]
  refine classify_of_data_known ?_ he
  rw [headerKind_set b hlo, withChecksum, headerKind_data]

/-- No change of one header byte makes a known header of a known header (C8, R56). -/
theorem headerKind_of_changed_header {f : List Byte} {offset : Nat} {b : Byte} (hk : headerKind f ≠ none)
    (ho : offset < 2) (hne : f[offset]? ≠ some b) : headerKind (f.set offset b) = none := by
  have hcases : offset = 0 ∨ offset = 1 := by omega
  match h : headerKind f with
  | none => exact absurd h hk
  | some .response =>
    obtain ⟨rest, rfl⟩ := headerKind_eq_response.mp h
    rcases hcases with rfl | rfl
    · exact headerKind_none_of_unknown rest (fun h => hne (by simp [h.1])) (by simp)
    · exact headerKind_none_of_unknown rest (fun h => hne (by simp [h.2])) (by simp)
  | some .data =>
    obtain ⟨rest, rfl⟩ := headerKind_eq_data.mp h
    rcases hcases with rfl | rfl
    · exact headerKind_none_of_unknown rest (by simp) (fun h => hne (by simp [h.1]))
    · exact headerKind_none_of_unknown rest (by simp) (fun h => hne (by simp [h.2]))

/-- Settles O57: both headers differ in both bytes, so the changed one is unknown and the pass waits. -/
theorem corruptedHeaderWedges : Obligations.CorruptedHeaderWedges := by
  intro f offset b s hframe hf ho hb hlt hne
  have hknown : headerKind f ≠ none ∧ 2 ≤ f.length := by
    rcases hframe with ⟨d, p, r, st, rfl⟩ | ⟨d, payload, rfl⟩ <;> simp [withChecksum]
  obtain ⟨hk, hl⟩ := hknown
  have hnone := headerKind_of_changed_header hk hlt hne
  have hwait : extractPass { s with buf := f.set offset b } = .wait :=
    extractPass_of_unclassified (classify_of_unknownHeader hnone)
  refine ⟨?_, by simp [State.wedged, hnone, hl]⟩
  rw [exec_feed hf (overflows_of_le ho rfl (by simp)), memAppend_of_emptyBuffer _ hb, extract_of_wait hwait]

/-! ### The cut into chunks -/

/-- Settles O53: the one chunk is dropped to its end; the candidate alone leaves an empty buffer for the next chunk. -/
theorem chunkingIsObservableAfterAMismatch : Obligations.ChunkingIsObservableAfterAMismatch := by
  intro d p r st c b s hf hb hc ho
  have hcand : exec (.feed (rspBody d p r st ++ b16 c)) s = .next { s with expLen := .unknown } := by
    have h := exec_feed_of_response_mismatch (rest := []) hf hb hc
    rw [List.append_nil] at h
    exact h (overflows_of_le ho rfl (by simp; omega))
  have hroom : overflows b { s with expLen := .unknown } = false :=
    overflows_of_le ho rfl (by simp; omega)
  refine ⟨exec_feed_of_response_mismatch hf hb hc ho, ?_, _, exec_feed (s := { s with expLen := .unknown }) hf hroom⟩
  rw [serveAll_of_next hcand, serveAll_singleton]

/-- A classified head stays classified, with the same need, when bytes come behind it (R72). -/
theorem classify_memAppend {s : State} {kind : FrameKind} {need : Nat} (b : List Byte)
    (h : classify s = some (kind, need)) : classify (memAppend b s) = some (kind, need) := by
  have hl : 2 ≤ s.buf.length := by
    by_contra hlt
    rw [classify_of_unknownHeader (headerKind_none_of_short (by omega))] at h
    cases h
  rw [← h]
  exact classify_congr (List.take_append_of_le_length hl) rfl

/-- A change of the state that the two resolutions neither see nor undo: they do the same behind it. -/
structure UnseenByResolutions (g : State → State) : Prop where
  rspSlot : ∀ s, (g s).rspSlot = s.rspSlot
  datSlot : ∀ s, (g s).datSlot = s.datSlot
  cfg : ∀ s, (g s).cfg = s.cfg
  setRspSlot : ∀ v s, setRspSlot v (g s) = g (setRspSlot v s)
  setDatSlot : ∀ v s, setDatSlot v (g s) = g (setDatSlot v s)
  unexpectLen : ∀ s, unexpectLen (g s) = g (unexpectLen s)
  complete : ∀ c s, complete c (g s) = g (complete c s)

theorem UnseenByResolutions.settleCmd {g : State → State} (hg : UnseenByResolutions g) (c : Completion) (s : State) :
    settleCmd c (g s) = g (settleCmd c s) := by
  rcases settleCmd_cases c s with ⟨hp, e⟩ | ⟨he, e⟩ <;> rw [e]
  · simp [Machine.settleCmd, hg.rspSlot, hp, hg.setRspSlot, hg.complete]
  · exact settleCmd_of_empty c ((hg.rspSlot s).trans he)

theorem UnseenByResolutions.settleDat {g : State → State} (hg : UnseenByResolutions g) (c : Completion) (s : State) :
    settleDat c (g s) = g (settleDat c s) := by
  rcases settleDat_cases c s with ⟨hp, e⟩ | ⟨he, e⟩ <;> rw [e]
  · simp [Machine.settleDat, hg.datSlot, hp, hg.setDatSlot, hg.complete]
  · exact settleDat_of_empty c ((hg.datSlot s).trans he)

theorem UnseenByResolutions.acceptResponse {g : State → State} (hg : UnseenByResolutions g) (p : ResponsePacket)
    (s : State) : acceptResponse p (g s) = g (acceptResponse p s) := by
  simp only [Machine.acceptResponse, emitRsp, hg.settleCmd]
  split_ifs <;> rfl

theorem UnseenByResolutions.acceptData {g : State → State} (hg : UnseenByResolutions g) (p : DataPacket) (s : State) :
    acceptData p (g s) = g (acceptData p s) := by
  simp only [Machine.acceptData, emitDat, hg.cfg, hg.unexpectLen]
  split_ifs <;> exact hg.settleDat _ _

theorem UnseenByResolutions.judge_of_accepted {g : State → State} (hg : UnseenByResolutions g) {kind : FrameKind}
    {cand : List Byte} {s t : State} (h : judge kind cand s = .accepted t) :
    judge kind cand (g s) = .accepted (g t) := by
  rcases judge_cases kind cand s with ⟨hok, rfl, e⟩ | ⟨hok, rfl, e⟩ | ⟨_, e⟩ <;> rw [e] at h <;> cases h
  · simp [judge, hok, hg.acceptResponse]
  · simp [judge, hok, hg.acceptData]

theorem unseenByResolutions_memAppend (b : List Byte) : UnseenByResolutions (memAppend b) where
  rspSlot _ := rfl
  datSlot _ := rfl
  cfg _ := rfl
  setRspSlot _ _ := rfl
  setDatSlot _ _ := rfl
  unexpectLen _ := rfl
  complete _ _ := rfl

/-- Bytes behind a complete candidate do not change the pass that accepts it, and stay behind it (R31, R74). -/
theorem extractPass_memAppend_of_accepted {s t : State} (b : List Byte) (h : extractPass s = .accepted t) :
    extractPass (memAppend b s) = .accepted (memAppend b t) := by
  obtain ⟨kind, need, hc, hl, hj⟩ := candidate_of_accepted h
  have hslice : memDrop need (memAppend b s) = memAppend b (memDrop need s) := by
    simp [memDrop, memAppend, List.drop_append_of_le_length hl]
  rw [extractPass_of_complete (classify_memAppend b hc) (by simp; omega), memAppend_buf,
    List.take_append_of_le_length hl, hslice]
  exact (unseenByResolutions_memAppend b).judge_of_accepted hj

/-- Bytes behind a complete candidate do not save it from the drop (R31, R76). -/
theorem extractPass_memAppend_of_dropped {s t : State} (b : List Byte) (h : extractPass s = .dropped t) :
    ∃ u, extractPass (memAppend b s) = .dropped u := by
  obtain ⟨kind, need, hc, hl, hbad⟩ := candidate_of_dropped h
  refine ⟨_, extractPass_of_mismatch (classify_memAppend b hc) (by simp; omega) ?_⟩
  rw [memAppend_buf, List.take_append_of_le_length hl, hbad]

/-- Without a mismatch, extracting before the last bytes come changes nothing (R39). -/
theorem extract_memAppend_of_noMismatch (b : List Byte) : ∀ (fuel : Nat) (s : State), s.expLenInRange = true →
    (memAppend b s).buf.length ≤ fuel → noMismatchWithin fuel (memAppend b s) = true →
    extract (memAppend b s) = extract (memAppend b (extract s)) := by
  intro fuel
  induction fuel with
  | zero =>
    intro s _ hl _
    obtain ⟨hb, _⟩ : s.buf = [] ∧ b = [] := by simpa using hl
    rw [extract_of_wait (extractPass_of_emptyBuffer hb)]
  | succ fuel ih =>
    intro s hr hl hno
    match hp : extractPass s with
    | .wait => rw [extract_of_wait hp]
    | .dropped t =>
      obtain ⟨u, hu⟩ := extractPass_memAppend_of_dropped b hp
      simp [noMismatchWithin, hu] at hno
    | .accepted t =>
      have hpass := extractPass_memAppend_of_accepted b hp
      have hrb : (memAppend b s).expLenInRange = true := hr
      obtain ⟨hshrink, hrt⟩ := accepted_shrinks hrb hpass
      rw [noMismatchWithin, hpass] at hno
      rw [extract_of_accepted hrb hpass, extract_of_accepted hr hp]
      exact ih t hrt (by omega) hno

/-- Settles O52: the second chunk is the bytes that come behind the first one's extraction. -/
theorem chunkingIsInvisibleWithoutMismatch : Obligations.ChunkingIsInvisibleWithoutMismatch := by
  rintro a b s hf ⟨_, _, hr, _⟩ ho hno
  have hjoin : memAppend (a ++ b) s = memAppend b (memAppend a s) := by simp [memAppend]
  rw [State.extractsWithoutMismatch, hjoin] at hno
  obtain ⟨hl, _, hfault, hcfg, _⟩ := extract_frame (memAppend a s)
  have hfirst : exec (.feed a) s = .next (extract (memAppend a s)) :=
    exec_feed hf (overflows_of_le ho rfl (by simp))
  have hroom : overflows b (extract (memAppend a s)) = false :=
    overflows_of_le ho hcfg (by simp at hl ⊢; omega)
  rw [serveAll_of_next hfirst, serveAll_singleton, exec_feed (hfault.trans hf) hroom, exec_feed hf ho, hjoin]
  rw [extract_memAppend_of_noMismatch b _ (memAppend a s) hr (Nat.le_refl _) hno]

/-! ### A Data frame fed in chunks -/

/-- The block waits for a Data frame of this payload, with room for the whole frame (R107). -/
structure AwaitsFrame (payload : List Byte) (s : State) : Prop where
  fault : s.fault = none
  expLen : s.expLen = .known (payload.length + 6)
  datSlot : s.datSlot = .pending
  clears : s.cfg.keepLenAfterData = false
  room : ∀ cap, s.cfg.bufCap = some cap → payload.length + 6 ≤ cap

/-- Part of an awaited Data frame at the head: the pass waits for the rest (R72, R73). -/
theorem extractPass_of_part {s : State} {d : Half} {payload rest : List Byte}
    (hpart : s.buf ++ rest = withChecksum (datBody d payload)) (hrest : rest ≠ [])
    (he : s.expLen = .known (payload.length + 6)) : extractPass s = .wait := by
  have hlen := congrArg List.length hpart
  have hpos := List.length_pos_of_ne_nil hrest
  simp at hlen
  by_cases hl : s.buf.length < 2
  · exact extractPass_of_unclassified (classify_of_unknownHeader (headerKind_none_of_short hl))
  · have hk : headerKind s.buf = some .data := by
      rw [← headerKind_append rest (by omega), hpart, withChecksum, headerKind_data]
    exact extractPass_of_short (classify_of_data_known hk he) (by omega)

theorem AwaitsFrame.fits {payload chunk rest : List Byte} {s : State} (h : AwaitsFrame payload s)
    (hpart : s.buf ++ (chunk ++ rest) = encDat payload) : overflows chunk s = false := by
  have hlen := congrArg List.length hpart
  simp [encDat] at hlen
  exact overflows_eq_false_iff.mpr fun cap hcap => by have := h.room cap hcap; omega

/-- A chunk that leaves the awaited frame incomplete is taken in, and nothing else happens (R70, R73). -/
theorem AwaitsFrame.exec_feed_part {payload chunk rest : List Byte} {s : State} (h : AwaitsFrame payload s)
    (hpart : s.buf ++ (chunk ++ rest) = encDat payload) (hrest : rest ≠ []) :
    exec (.feed chunk) s = .next (memAppend chunk s) := by
  have hwait : extractPass (memAppend chunk s) = .wait :=
    extractPass_of_part (d := devIdWord) (by rw [memAppend_buf, List.append_assoc]; exact hpart) hrest h.expLen
  rw [exec_feed h.fault (h.fits hpart), extract_of_wait hwait]

/-- The chunk that completes the awaited frame settles the receive (R78, R110). -/
theorem AwaitsFrame.exec_feed_last {payload chunk : List Byte} {s : State} (h : AwaitsFrame payload s)
    (hlast : s.buf ++ chunk = encDat payload) :
    exec (.feed chunk) s = .next { s with
      buf := []
      expLen := .unknown
      datSlot := .empty
      cplLog := s.cplLog ++ [.datOk payload] } := by
  have hhead : (memAppend chunk s).buf = withChecksum (datBody devIdWord payload) ++ [] := by
    simp [hlast, encDat]
  have hpass := extractPass_of_pending_data hhead h.expLen h.datSlot
  rw [exec_feed h.fault (h.fits (rest := []) (by simpa using hlast)), extract_of_accepted_last hpass rfl]
  simp [h.clears]

/-- Empty chunks on an empty buffer do nothing (R70, R71). -/
theorem serveAll_emptyChunks {chunks : List (List Byte)} {s : State} (hf : s.fault = none) (hb : s.buf = [])
    (hc : chunks.flatten = []) : serveAll (chunks.map .feed) s = .next s := by
  induction chunks with
  | nil => rfl
  | cons chunk chunks ih =>
    obtain ⟨rfl, hrest⟩ := List.append_eq_nil_iff.mp hc
    have ho : overflows [] s = false := overflows_eq_false_iff.mpr fun cap _ => by simp [hb]
    have hfeed : exec (.feed []) s = .next s := by
      rw [exec_feed hf ho, memAppend_of_emptyBuffer [] hb, ← hb, extract_of_wait (extractPass_of_emptyBuffer hb)]
    rw [List.map_cons, serveAll_of_next hfeed, ih hrest]

/-- An incomplete awaited frame is delivered when the rest of it is fed, in any chunks (R70, R78, R110). -/
theorem serveAll_rest_of_frame {payload : List Byte} : ∀ (chunks : List (List Byte)) (s : State),
    AwaitsFrame payload s → s.buf ≠ encDat payload → s.buf ++ chunks.flatten = encDat payload →
    serveAll (chunks.map .feed) s = .next { s with
      buf := []
      expLen := .unknown
      datSlot := .empty
      cplLog := s.cplLog ++ [.datOk payload] } := by
  intro chunks
  induction chunks with
  | nil => intro s _ hpart hwhole; exact absurd (by simpa using hwhole) hpart
  | cons chunk chunks ih =>
    intro s h hpart hwhole
    rw [List.flatten_cons] at hwhole
    rw [List.map_cons]
    by_cases hrest : chunks.flatten = []
    · have hlast : s.buf ++ chunk = encDat payload := by simpa [hrest] using hwhole
      rw [serveAll_of_next (h.exec_feed_last hlast)]
      exact serveAll_emptyChunks h.fault rfl hrest
    · rw [serveAll_of_next (h.exec_feed_part hwhole hrest)]
      rw [← List.append_assoc] at hwhole
      exact ih (memAppend chunk s) ⟨h.fault, h.expLen, h.datSlot, h.clears, h.room⟩
        (fun hall => hrest (List.append_right_eq_self.mp (hwhole.trans hall.symm))) hwhole

/-- Settles O54: `RECV_DATA` leaves the block waiting for the frame, of which nothing is buffered yet. -/
theorem dataRoundTrip : Obligations.DataRoundTrip := by
  intro payload chunks s hf ho hkeep hb he h16 hmax hchunks
  have hroom (cap : Nat) (hcap : s.cfg.bufCap = some cap) : payload.length + 6 ≤ cap := by
    have hfits := overflows_eq_false_iff.mp ho cap hcap
    simpa [hb, encDat] using hfits
  have hnotYet : s.buf ≠ encDat payload := by simp [hb, encDat_eq_bytes]
  have hfed := serveAll_rest_of_frame chunks { s with expLen := .known (payload.length + 6), datSlot := .pending }
    ⟨hf, rfl, rfl, hkeep, hroom⟩ hnotYet (by simp [hb, hchunks])
  rw [serveAll_of_next (exec_recvData_of_length hf he h16 hmax), hfed]
  simp [hb, he]

end Sys2Proof.Machine
end

section
/-! PROOFS. The whole machine: what one step does, and what every step keeps (R18, R19, R23, R40, R41, R98, R115, R147,
R152, R170). -/

namespace Sys2Proof.Machine

/-! ### What a step does -/

/-- A request on an unfaulted block, by its select (R63, R64). -/
def requestBody (r : Request) : State → State :=
  if r.op = 1 then sendCmd r.opcode r.param
  else if r.op = 2 then sendData r.payload
  else if r.op = 3 then recvData r.n
  else complete .illegalOp

/-- An event that is enabled, on a block that serves it (R40, R65). -/
def eventBody : Input → State → State
  | .rx chunk => feed chunk
  | .req r => requestBody r
  | .tmrData => fun s => complete .datTimeout (unexpectLen (setDatSlot .empty s))
  | .tmrCmd => fun s => complete .cmdTimeout (setRspSlot .empty s)
  | .rst => resetBlock

/-- An event due: nothing happens where it is cancelled, nor on a faulted block, unless it is `RESET` (R147, R152). -/
def serveEvent (p : Input) (s : State) : State :=
  if cancelled p s = false ∧ (s.fault = none ∨ p = .rst) then eventBody p s else s

theorem step_of_idle {s : State} (h : s.inbox = []) : step s = .next s := by
  simp [step, fetch, h]

theorem step_of_cancelled {s : State} {p : Input} {rest : List Input} (h : s.inbox = p :: rest)
    (hc : cancelled p s = true) : step s = .next { s with inbox := rest } := by
  simp [step, fetch, h, hc]

theorem step_of_enabled {s : State} {p : Input} {rest : List Input} (h : s.inbox = p :: rest)
    (hc : cancelled p s = false) : step s = exec (decodeInput p) { s with inbox := rest } := by
  simp [step, fetch, h, hc]

/-- Only the timers' events are ever cancelled, each with its timer (R112, R147). -/
theorem cancelled_iff {p : Input} {s : State} :
    cancelled p s = true ↔
      (p = .tmrData ∧ s.datSlot = .empty) ∨ (p = .tmrCmd ∧ (s.cfg.tCmd = none ∨ s.rspSlot = .empty)) := by
  cases p with
  | tmrData => simp [cancelled, dataTimerArmed_eq_false_iff]
  | tmrCmd => simp [cancelled, cmdTimerArmed_eq_false_iff]
  | rx | req | rst => simp [cancelled]

/-- Cancellation reads the timers, not the list of events due (R98, R112). -/
theorem cancelled_of_rest (p : Input) (s : State) (rest : List Input) :
    cancelled p { s with inbox := rest } = cancelled p s := by
  cases p <;> rfl

/-- Settles O41. -/
theorem stepServesTheOldestEvent : Obligations.StepServesTheOldestEvent :=
  fun _ => ⟨step_of_idle, fun _ _ h => ⟨step_of_enabled h, step_of_cancelled h, cancelled_iff⟩⟩

theorem exec_decodeRequest (r : Request) {s : State} (hf : s.fault = none) :
    exec (decodeRequest r) s = .next (requestBody r s) := by
  unfold decodeRequest requestBody
  split_ifs <;> exact served_of_noFault _ hf

theorem decodeInput_ne_reset {p : Input} (hp : p ≠ .rst) : decodeInput p ≠ .reset := by
  cases p with
  | rst => exact absurd rfl hp
  | req r => simp only [decodeInput, decodeRequest]; split_ifs <;> simp
  | rx | tmrData | tmrCmd => simp [decodeInput]

/-- An enabled event answers a next state (R40). -/
theorem exec_decodeInput {p : Input} {s : State} (hc : cancelled p s = false) :
    exec (decodeInput p) s = .next (serveEvent p s) := by
  by_cases hrst : p = .rst
  · rw [serveEvent, if_pos ⟨hc, .inr hrst⟩, hrst]
    rfl
  · by_cases hf : s.fault = none
    · rw [serveEvent, if_pos ⟨hc, .inl hf⟩]
      cases p with
      | rx chunk => exact served_of_noFault _ hf
      | req r => exact exec_decodeRequest r hf
      | tmrData => exact (exec_dataTimeout hf).trans (if_pos (by simpa [cancelled] using hc))
      | tmrCmd => exact (exec_cmdTimeout hf).trans (if_pos (by simpa [cancelled] using hc))
      | rst => rfl
    · rw [serveEvent, if_neg (by simp [hf, hrst]), exec_of_fault hf (decodeInput_ne_reset hrst)]

/-- A step serves the oldest event due in the state without it (R40). -/
theorem step_of_event {s : State} {p : Input} {rest : List Input} (h : s.inbox = p :: rest) :
    step s = .next (serveEvent p { s with inbox := rest }) := by
  by_cases hc : cancelled p s = true
  · rw [step_of_cancelled h hc, serveEvent, cancelled_of_rest, hc]
    rfl
  · rw [Bool.not_eq_true] at hc
    rw [step_of_enabled h hc, exec_decodeInput (by rw [cancelled_of_rest, hc])]

/-- Settles O42. -/
theorem everyStepAnswersANextState : Obligations.EveryStepAnswersANextState := by
  intro s
  match h : s.inbox with
  | [] => exact ⟨s, step_of_idle h⟩
  | p :: rest => exact ⟨_, step_of_event h⟩

/-- Everything a step can do: leave the block alone, or serve the oldest event on a block that serves it (R40, R147,
R152). -/
theorem step_cases {s t : State} (h : step s = .next t) :
    (∃ rest, t = { s with inbox := rest }) ∨
    ∃ p rest, s.inbox = p :: rest ∧ cancelled p s = false ∧ (s.fault = none ∨ p = .rst) ∧
      t = eventBody p { s with inbox := rest } := by
  match hi : s.inbox with
  | [] =>
    rw [step_of_idle hi] at h
    cases h
    exact .inl ⟨s.inbox, rfl⟩
  | p :: rest =>
    rw [step_of_event hi] at h
    cases h
    by_cases hserved : cancelled p s = false ∧ (s.fault = none ∨ p = .rst)
    · obtain ⟨hc, hf⟩ := hserved
      refine .inr ⟨p, rest, rfl, hc, hf, ?_⟩
      rw [serveEvent, cancelled_of_rest, if_pos ⟨hc, hf⟩]
    · refine .inl ⟨rest, ?_⟩
      rw [serveEvent, cancelled_of_rest, if_neg hserved]

/-- A completion that no frame brings: it answers a request at once (R141). -/
def AnswersRequest (c : Completion) : Prop := isResponseCompletion c = false ∧ isDataCompletion c = false

/-- Everything a request can do: answer without a write, write a command and arm the slot, write a frame and answer, or
arm a receive (R64, R90 to R93, R105 to R109). -/
theorem requestBody_cases (r : Request) (s : State) :
    (∃ c, AnswersRequest c ∧ requestBody r s = complete c s) ∨
    (r.op = 1 ∧ requestBody r s = setRspSlot .pending (txWrite (encCmd r.opcode r.param) s)) ∨
    (∃ f c, AnswersRequest c ∧
      ((r.op = 1 ∧ f = encCmd r.opcode r.param) ∨ (r.op = 2 ∧ f = encDat r.payload)) ∧
      requestBody r s = complete c (txWrite f s)) ∨
    (∃ n, s.datSlot = .empty ∧ 6 ≤ n ∧ n ≤ s.cfg.lenMax ∧
      requestBody r s = setDatSlot .pending (expectLen n s)) := by
  unfold requestBody
  split_ifs with h1 h2 h3
  · rcases slot_empty_or_pending s.rspSlot with he | hp
    · cases ha : txAnswer s with
      | ok => exact .inr (.inl ⟨h1, sendCmd_of_ok _ _ he ha⟩)
      | fail => exact .inr (.inr (.inl ⟨_, _, ⟨rfl, rfl⟩, .inl ⟨h1, rfl⟩, sendCmd_of_fail _ _ he ha⟩))
    · exact .inl ⟨_, ⟨rfl, rfl⟩, sendCmd_of_pending _ _ hp⟩
  · by_cases hl : r.payload.length ≤ s.cfg.lenMax - 6
    · refine .inr (.inr (.inl ⟨_, _, ?_, .inr ⟨h2, rfl⟩, sendData_of_fits hl⟩))
      cases txAnswer s <;> exact ⟨rfl, rfl⟩
    · exact .inl ⟨_, ⟨rfl, rfl⟩, sendData_of_long (Nat.lt_of_not_le hl)⟩
  · rcases slot_empty_or_pending s.datSlot with he | hp
    · by_cases hr : 6 ≤ r.n.toNat ∧ r.n.toNat ≤ s.cfg.lenMax
      · obtain ⟨hlo, hhi⟩ := hr
        exact .inr (.inr (.inr ⟨_, he, hlo, hhi, recvData_of_inRange he hlo hhi⟩))
      · exact .inl ⟨_, ⟨rfl, rfl⟩, recvData_of_outOfRange he (by omega)⟩
    · exact .inl ⟨_, ⟨rfl, rfl⟩, recvData_of_pending _ hp⟩
  · exact .inl ⟨_, ⟨rfl, rfl⟩, rfl⟩

/-- Everything a `FEED` can do on an unfaulted block (R70, R85). -/
theorem feed_cases (chunk : List Byte) (s : State) :
    (overflows chunk s = true ∧ feed chunk s = raiseFault .bufferOverflow s) ∨
    (overflows chunk s = false ∧ feed chunk s = extract (memAppend chunk s)) := by
  cases ho : overflows chunk s <;> simp [feed, ho]

/-! ### The invariant -/

/-- The two clauses of the invariant about the expectation: its range and its receiver (R14, R23). -/
def ExpectationOk (s : State) : Prop := s.expLenInRange = true ∧ s.expectationHasReceiver = true

theorem expectationOk_of_unknown {s : State} (he : s.expLen = .unknown) : ExpectationOk s := by
  simp [ExpectationOk, State.expLenInRange, State.expectationHasReceiver, expKnown, he]

theorem ExpectationOk.congr {s t : State} (h : ExpectationOk s) (he : t.expLen = s.expLen)
    (hd : t.datSlot = s.datSlot) (hc : t.cfg = s.cfg) : ExpectationOk t := by
  simpa only [ExpectationOk, State.expLenInRange, State.expectationHasReceiver, expKnown, datPending, he, hd, hc]
    using h

/-- Behind a valid Data frame no expectation is left, or it is one that needs no receiver (R23, R78). -/
theorem expectationOk_acceptData {s : State} (h : ExpectationOk s) (p : DataPacket) :
    ExpectationOk (acceptData p s) := by
  obtain ⟨_, he, _, _, hc, _⟩ := acceptData_frame p s
  by_cases hk : s.cfg.keepLenAfterData = true
  · rw [if_pos hk] at he
    obtain ⟨hr, _⟩ := h
    exact ⟨by simpa only [State.expLenInRange, he, hc] using hr, by simp [State.expectationHasReceiver, hc, hk]⟩
  · rw [if_neg hk] at he
    exact expectationOk_of_unknown he

theorem expectationOk_extract {s : State} (h : ExpectationOk s) : ExpectationOk (extract s) := by
  have hslice (t : State) (rest : List Byte) (ht : ExpectationOk t) : ExpectationOk { t with buf := rest } :=
    ht.congr rfl rfl rfl
  refine extract_induction (P := ExpectationOk) (fun p rest t ht => ?_)
    (fun p rest n t _ ht => expectationOk_acceptData (hslice t rest ht) p)
    (fun t _ => expectationOk_of_unknown rfl) h
  obtain ⟨_, he, hd, _, hc, _⟩ := acceptResponse_frame p { t with buf := rest }
  exact (hslice t rest ht).congr he hd hc

theorem feed_keeps_inv (chunk : List Byte) {s : State} (h : s.Inv) : (feed chunk s).Inv := by
  obtain ⟨hcfg, hmem, hrange, hrecv, hfault⟩ := h
  have hmem' := feed_wf chunk hmem
  rcases feed_cases chunk s with ⟨ho, e⟩ | ⟨_, e⟩ <;> rw [e] at hmem' ⊢
  · obtain ⟨cap, hcap, _⟩ := overflows_eq_true_iff.mp ho
    exact ⟨hcfg, hmem', hrange, hrecv, by simp [State.faultNeedsCapacity, hcap]⟩
  · obtain ⟨_, _, hf, hc, _⟩ := extract_frame (memAppend chunk s)
    obtain ⟨hrange', hrecv'⟩ := expectationOk_extract (s := memAppend chunk s) ⟨hrange, hrecv⟩
    refine ⟨by rw [hc]; exact hcfg, hmem', hrange', hrecv', ?_⟩
    simpa only [State.faultNeedsCapacity, faulted, hf, hc, memAppend_fault, memAppend_cfg] using hfault

theorem requestBody_keeps_inv (r : Request) {s : State} (h : s.Inv) : (requestBody r s).Inv := by
  rcases requestBody_cases r s with ⟨c, _, e⟩ | ⟨_, e⟩ | ⟨f, c, _, _, e⟩ | ⟨n, _, hlo, hhi, e⟩ <;> rw [e]
  · exact h
  · exact h
  · exact h
  · obtain ⟨hcfg, hmem, _, _, hfault⟩ := h
    exact ⟨hcfg, hmem, expLenInRange_of_known rfl hlo hhi, by simp [State.expectationHasReceiver, datPending], hfault⟩

theorem eventBody_keeps_inv (p : Input) {s : State} (h : s.Inv) : (eventBody p s).Inv := by
  cases p with
  | rx chunk => exact feed_keeps_inv chunk h
  | req r => exact requestBody_keeps_inv r h
  | tmrData =>
    obtain ⟨hcfg, hmem, _, _, hfault⟩ := h
    obtain ⟨hrange, hrecv⟩ := expectationOk_of_unknown (s := eventBody .tmrData s) rfl
    exact ⟨hcfg, hmem, hrange, hrecv, hfault⟩
  | tmrCmd => exact h
  | rst =>
    obtain ⟨hcfg, hmem, _⟩ := h
    obtain ⟨hrange, hrecv⟩ := expectationOk_of_unknown (s := resetBlock s) rfl
    exact ⟨hcfg, memory_wf_of_le (s := s) rfl (by simp [eventBody]) hmem, hrange, hrecv, rfl⟩

/-- Settles O46: the invariant does not read the events due, and every event keeps it. -/
theorem stepKeepsTheInvariant : Obligations.StepKeepsTheInvariant := by
  intro s t h hstep
  rcases step_cases hstep with ⟨rest, rfl⟩ | ⟨p, rest, _, _, _, rfl⟩
  · exact h
  · exact eventBody_keeps_inv p (s := { s with inbox := rest }) h

/-! ### The logs -/

/-- Entries put in front of the two logs. -/
def prependLogs (tx : List TxEntry) (cpl : List Completion) (s : State) : State :=
  { s with txLog := tx ++ s.txLog, cplLog := cpl ++ s.cplLog }

section
variable (tx : List TxEntry) (cpl : List Completion)

theorem prependLogs_withoutLogs (s : State) : prependLogs s.txLog s.cplLog s.withoutLogs = s := by
  simp [prependLogs, State.withoutLogs]

theorem unseenByResolutions_prependLogs : UnseenByResolutions (prependLogs tx cpl) where
  rspSlot _ := rfl
  datSlot _ := rfl
  cfg _ := rfl
  setRspSlot _ _ := rfl
  setDatSlot _ _ := rfl
  unexpectLen _ := rfl
  complete _ _ := by simp [complete, prependLogs]

theorem txWrite_prependLogs (f : List Byte) (s : State) :
    txWrite f (prependLogs tx cpl s) = prependLogs tx cpl (txWrite f s) := by
  simp [txWrite, prependLogs, txAnswer]

theorem extractLoop_prependLogs (fuel : Nat) (s : State) :
    extractLoop fuel (prependLogs tx cpl s) = prependLogs tx cpl (extractLoop fuel s) := by
  induction fuel generalizing s with
  | zero => rfl
  | succ fuel ih =>
    match hp : extractPass s with
    | .wait =>
      have hwait : extractPass (prependLogs tx cpl s) = .wait :=
        extractPass_eq_wait_iff.mpr (extractPass_eq_wait_iff (s := s).mp hp)
      simp [extractLoop, hp, hwait]
    | .accepted t =>
      obtain ⟨kind, need, hc, hl, hj⟩ := candidate_of_accepted hp
      have hacc : extractPass (prependLogs tx cpl s) = .accepted (prependLogs tx cpl t) :=
        (extractPass_of_complete (s := prependLogs tx cpl s) hc hl).trans
          ((unseenByResolutions_prependLogs tx cpl).judge_of_accepted hj)
      simp [extractLoop, hp, hacc, ih]
    | .dropped t =>
      obtain ⟨kind, need, hc, hl, hbad⟩ := candidate_of_dropped hp
      have hdrop := extractPass_of_mismatch (s := prependLogs tx cpl s) hc hl hbad
      simp only [extractLoop, hp, hdrop, dropped_eq hp]
      rfl

theorem feed_prependLogs (chunk : List Byte) (s : State) :
    feed chunk (prependLogs tx cpl s) = prependLogs tx cpl (feed chunk s) := by
  have ho : overflows chunk (prependLogs tx cpl s) = overflows chunk s := rfl
  unfold feed
  rw [ho]
  split
  · rfl
  · exact extractLoop_prependLogs tx cpl _ (memAppend chunk s)

theorem requestBody_prependLogs (r : Request) (s : State) :
    requestBody r (prependLogs tx cpl s) = prependLogs tx cpl (requestBody r s) := by
  have hg := unseenByResolutions_prependLogs tx cpl
  have ha : txAnswer (prependLogs tx cpl s) = txAnswer s := rfl
  have hlong : payloadTooLong r.payload (prependLogs tx cpl s) = payloadTooLong r.payload s := rfl
  have hrange : lengthInRange r.n (prependLogs tx cpl s) = lengthInRange r.n s := rfl
  have hexp : expectLen r.n.toNat (prependLogs tx cpl s) = prependLogs tx cpl (expectLen r.n.toNat s) := rfl
  unfold requestBody
  split_ifs
  · simp only [sendCmd, hg.rspSlot, ha, hg.complete, txWrite_prependLogs, hg.setRspSlot]
    split_ifs <;> rfl
  · simp only [sendData, hlong, ha, hg.complete, txWrite_prependLogs]
    split_ifs <;> rfl
  · simp only [recvData, hg.datSlot, hrange, hg.complete, hexp, hg.setDatSlot]
    split_ifs <;> rfl
  · exact hg.complete _ s

theorem eventBody_prependLogs (p : Input) (s : State) :
    eventBody p (prependLogs tx cpl s) = prependLogs tx cpl (eventBody p s) := by
  have hg := unseenByResolutions_prependLogs tx cpl
  cases p with
  | rx chunk => exact feed_prependLogs tx cpl chunk s
  | req r => exact requestBody_prependLogs tx cpl r s
  | tmrData => exact hg.complete _ (unexpectLen (setDatSlot .empty s))
  | tmrCmd => exact hg.complete _ (setRspSlot .empty s)
  | rst => rfl

theorem serveEvent_prependLogs (p : Input) (s : State) :
    serveEvent p (prependLogs tx cpl s) = prependLogs tx cpl (serveEvent p s) := by
  have hc : cancelled p (prependLogs tx cpl s) = cancelled p s := by cases p <;> rfl
  have hf : (prependLogs tx cpl s).fault = s.fault := rfl
  simp only [serveEvent, hc, hf, eventBody_prependLogs]
  split_ifs <;> rfl

end

/-- Settles O47: a state is its logs put in front of the state without them, and every event commutes with that. -/
theorem logsAreNeverRead : Obligations.LogsAreNeverRead := by
  intro s u h
  match hi : s.inbox with
  | [] =>
    rw [step_of_idle hi]
    rw [step_of_idle (s := s.withoutLogs) hi] at h
    cases h
    exact congrArg Host.Outcome.next (prependLogs_withoutLogs s).symm
  | p :: rest =>
    rw [step_of_event (s := s.withoutLogs) hi] at h
    cases h
    have hserve := serveEvent_prependLogs s.txLog s.cplLog p { s.withoutLogs with inbox := rest }
    rw [step_of_event hi]
    refine congrArg Host.Outcome.next (Eq.trans ?_ hserve)
    simp [prependLogs, State.withoutLogs]

/-- Parameters and events due are kept, and the logs only grow (R19, R20). -/
def KeepsHistory (s t : State) : Prop :=
  t.cfg = s.cfg ∧ t.inbox = s.inbox ∧ s.txLog <+: t.txLog ∧ s.cplLog <+: t.cplLog

theorem KeepsHistory.refl (s : State) : KeepsHistory s s := ⟨rfl, rfl, List.prefix_refl _, List.prefix_refl _⟩

theorem served_keepsHistory {f : State → State} {s t : State} (hf : KeepsHistory s (f s))
    (h : served f s = .next t) : KeepsHistory s t := by
  by_cases hfault : s.fault = none
  · rw [served_of_noFault f hfault] at h
    cases h
    exact hf
  · rw [served_of_fault f hfault] at h
    cases h
    exact KeepsHistory.refl s

theorem complete_keepsHistory (c : Completion) (s : State) : KeepsHistory s (complete c s) :=
  ⟨rfl, rfl, List.prefix_refl _, List.prefix_append _ _⟩

theorem txWrite_keepsHistory (f : List Byte) (s : State) : KeepsHistory s (txWrite f s) :=
  ⟨rfl, rfl, List.prefix_append _ _, List.prefix_refl _⟩

theorem settleCmd_keepsHistory (c : Completion) (s : State) : KeepsHistory s (settleCmd c s) := by
  obtain ⟨_, _, _, _, hcfg, hin, _, _, htx⟩ := settleCmd_frame c s
  exact ⟨hcfg, hin, by rw [htx], settleCmd_delivers c s⟩

theorem acceptResponse_keepsHistory (p : ResponsePacket) (s : State) : KeepsHistory s (acceptResponse p s) := by
  obtain ⟨c, _, e⟩ := emitRsp_settles p s
  rw [acceptResponse, e]
  exact settleCmd_keepsHistory c s

theorem acceptData_keepsHistory (p : DataPacket) (s : State) : KeepsHistory s (acceptData p s) := by
  obtain ⟨_, _, _, _, hcfg, hin, _, _, htx⟩ := acceptData_frame p s
  refine ⟨hcfg, hin, by rw [htx], ?_⟩
  rcases slot_empty_or_pending s.datSlot with he | hp
  · rw [acceptData_of_empty p he]
  · rw [acceptData_of_pending p hp]
    exact List.prefix_append _ _

theorem requestBody_keepsHistory (r : Request) (s : State) : KeepsHistory s (requestBody r s) := by
  rcases requestBody_cases r s with ⟨c, _, e⟩ | ⟨_, e⟩ | ⟨f, c, _, _, e⟩ | ⟨n, _, _, _, e⟩ <;> rw [e]
  · exact complete_keepsHistory c s
  · exact txWrite_keepsHistory _ s
  · exact ⟨rfl, rfl, List.prefix_append _ _, List.prefix_append _ _⟩
  · exact KeepsHistory.refl s

theorem extract_keepsHistory (s : State) : KeepsHistory s (extract s) := by
  obtain ⟨_, hcpl, _, hcfg, hin, _, _, htx⟩ := extract_frame s
  exact ⟨hcfg, hin, by rw [htx], hcpl⟩

theorem feed_keepsHistory (chunk : List Byte) (s : State) : KeepsHistory s (feed chunk s) := by
  rcases feed_cases chunk s with ⟨_, e⟩ | ⟨_, e⟩ <;> rw [e]
  · exact KeepsHistory.refl s
  · exact extract_keepsHistory (memAppend chunk s)

/-- Settles O44: row by row, through the gate of the fault latch. -/
theorem operationsKeepParametersAndHistory : Obligations.OperationsKeepParametersAndHistory := by
  intro i s t h
  cases i with
  | cmd opcode param => exact served_keepsHistory (txWrite_keepsHistory _ s) h
  | rspAck d p r => exact served_keepsHistory (settleCmd_keepsHistory _ s) h
  | rspNack d p r => exact served_keepsHistory (settleCmd_keepsHistory _ s) h
  | rspOther d p r st => exact served_keepsHistory (acceptResponse_keepsHistory _ s) h
  | rspBadsum d p r st c =>
    refine served_keepsHistory ?_ h
    unfold judgeRsp
    split
    · exact acceptResponse_keepsHistory _ s
    · exact KeepsHistory.refl s
  | dat d payload c =>
    refine served_keepsHistory ?_ h
    unfold judgeDat
    split
    · exact acceptData_keepsHistory _ s
    · exact KeepsHistory.refl s
  | sendCmd opcode param => exact served_keepsHistory (requestBody_keepsHistory ⟨1, opcode, param, [], 0⟩ s) h
  | sendData payload => exact served_keepsHistory (requestBody_keepsHistory ⟨2, 0, 0, payload, 0⟩ s) h
  | recvData n => exact served_keepsHistory (requestBody_keepsHistory ⟨3, 0, 0, [], n⟩ s) h
  | reqReserved => exact served_keepsHistory (complete_keepsHistory _ s) h
  | feed chunk => exact served_keepsHistory (feed_keepsHistory chunk s) h
  | dataTimeout =>
    by_cases hf : s.fault = none
    · rw [exec_dataTimeout hf] at h
      split at h <;> cases h
      exact complete_keepsHistory .datTimeout s
    · rw [exec_of_fault hf (by simp)] at h
      cases h
      exact KeepsHistory.refl s
  | cmdTimeout =>
    by_cases hf : s.fault = none
    · rw [exec_cmdTimeout hf] at h
      split at h <;> cases h
      exact complete_keepsHistory .cmdTimeout s
    · rw [exec_of_fault hf (by simp)] at h
      cases h
      exact KeepsHistory.refl s
  | reset => cases h; exact KeepsHistory.refl s
  | extract => exact served_keepsHistory (extract_keepsHistory s) h
  | expect n => exact served_keepsHistory (KeepsHistory.refl s) h
  | unexpect => exact served_keepsHistory (KeepsHistory.refl s) h
  | txWrite frame => exact served_keepsHistory (txWrite_keepsHistory frame s) h

/-! ### What a step can change -/

theorem feed_txLog (chunk : List Byte) (s : State) : (feed chunk s).txLog = s.txLog := by
  rcases feed_cases chunk s with ⟨_, e⟩ | ⟨_, e⟩ <;> rw [e]
  · rfl
  · obtain ⟨_, _, _, _, _, _, _, htx⟩ := extract_frame (memAppend chunk s)
    exact htx

/-- Settles O48: of the events only a request writes, and only the frame it asks for. -/
theorem wireIsWrittenOnlyForTheHost : Obligations.WireIsWrittenOnlyForTheHost := by
  intro s t h
  rcases step_cases h with ⟨rest, rfl⟩ | ⟨p, rest, hin, _, _, rfl⟩
  · exact .inl rfl
  · cases p with
    | rx chunk => exact .inl (feed_txLog chunk { s with inbox := rest })
    | req r =>
      have hhead : s.inbox.head? = some (.req r) := by rw [hin]; rfl
      rcases requestBody_cases r { s with inbox := rest } with
        ⟨c, _, e⟩ | ⟨hop, e⟩ | ⟨f, c, _, hf, e⟩ | ⟨n, _, _, _, e⟩ <;> rw [eventBody, e]
      · exact .inl rfl
      · exact .inr ⟨r, _, hhead, rfl, .inl ⟨hop, rfl⟩⟩
      · exact .inr ⟨r, _, hhead, rfl, hf⟩
      · exact .inl rfl
    | tmrData => exact .inl rfl
    | tmrCmd => exact .inl rfl
    | rst => exact .inl rfl

/-- A `FEED` that empties the command slot has delivered a Response's completion (R94 to R96). -/
theorem exists_response_of_settled {s t : State} (h : DeliversFor s t) (hp : s.rspSlot = .pending)
    (he : t.rspSlot = .empty) : ∃ k, isResponseCompletion k = true ∧ k ∈ t.cplLog.drop s.cplLog.length := by
  obtain ⟨delivered, hlog, hrsp, _, _⟩ := h
  have hpos : 0 < (delivered.filter isResponseCompletion).length := by simp [outstanding, hp, he] at hrsp; omega
  obtain ⟨k, hk⟩ := List.exists_mem_of_length_pos hpos
  obtain ⟨hmem, hkind⟩ := List.mem_filter.mp hk
  exact ⟨k, hkind, by rw [hlog, List.drop_left]; exact hmem⟩

/-- Settles O49: a request never empties the command slot, and the receive's timer leaves it alone. -/
theorem pendingCommandEndsOnlyByResponse : Obligations.PendingCommandEndsOnlyByResponse := by
  intro s t h hp he
  rcases step_cases h with ⟨rest, rfl⟩ | ⟨p, rest, hin, hc, _, rfl⟩
  · cases hp.symm.trans he
  · rw [hin]
    cases p with
    | rx chunk =>
      obtain ⟨k, hk, hmem⟩ := exists_response_of_settled (feed_deliversFor chunk { s with inbox := rest }) hp he
      exact .inr (.inr ⟨chunk, k, rfl, hk, hmem⟩)
    | req r =>
      rcases requestBody_cases r { s with inbox := rest } with
        ⟨c, _, e⟩ | ⟨_, e⟩ | ⟨f, c, _, _, e⟩ | ⟨n, _, _, _, e⟩ <;> rw [eventBody, e] at he
      · cases hp.symm.trans he
      · cases he
      · cases hp.symm.trans he
      · cases hp.symm.trans he
    | tmrData => cases hp.symm.trans he
    | tmrCmd =>
      refine .inr (.inl ⟨rfl, fun hnone => ?_, rfl⟩)
      rw [cancelled_iff.mpr (.inr ⟨rfl, .inl hnone⟩)] at hc
      cases hc
    | rst => exact .inl rfl

/-- A receive without its expectation (R115). -/
def Stranded (s : State) : Prop := s.datSlot = .pending ∧ s.expLen = .unknown

/-- No Data frame is classified without an expectation, so extraction leaves the stranded receive (R72, R115). -/
theorem stranded_extract {s : State} (h : Stranded s) : Stranded (extract s) := by
  refine extract_induction (P := Stranded) (fun p rest t ⟨hp, he⟩ => ?_) (fun p rest n t hn ⟨_, he⟩ => ?_)
    (fun t ⟨hp, _⟩ => ⟨hp, rfl⟩) h
  · obtain ⟨_, hexp, hdat, _⟩ := acceptResponse_frame p { t with buf := rest }
    exact ⟨hdat.trans hp, hexp.trans he⟩
  · cases he.symm.trans hn

/-- Settles O50: the pending slot refuses another `RECV_DATA`, and extraction needs an expectation. -/
theorem strandedReceiveStaysStranded : Obligations.StrandedReceiveStaysStranded := by
  intro s t hp he h hdata hrst
  rcases step_cases h with ⟨rest, rfl⟩ | ⟨p, rest, hin, _, _, rfl⟩
  · exact ⟨hp, he⟩
  · rw [hin] at hdata hrst
    cases p with
    | rx chunk =>
      rcases feed_cases chunk { s with inbox := rest } with ⟨_, e⟩ | ⟨_, e⟩ <;> rw [eventBody, e]
      · exact ⟨hp, he⟩
      · exact stranded_extract (s := memAppend chunk { s with inbox := rest }) ⟨hp, he⟩
    | req r =>
      rcases requestBody_cases r { s with inbox := rest } with
        ⟨c, _, e⟩ | ⟨_, e⟩ | ⟨f, c, _, _, e⟩ | ⟨n, hempty, _, _, e⟩ <;> rw [eventBody, e]
      · exact ⟨hp, he⟩
      · exact ⟨hp, he⟩
      · exact ⟨hp, he⟩
      · cases hp.symm.trans hempty
    | tmrData => exact absurd rfl hdata
    | tmrCmd => exact ⟨hp, he⟩
    | rst => exact absurd rfl hrst

/-- The buffer only grew, and what was delivered since came from no frame (R170). -/
def OnlyBuffers (s t : State) : Prop :=
  s.buf <+: t.buf ∧ ∃ delivered, t.cplLog = s.cplLog ++ delivered ∧ ∀ k ∈ delivered, AnswersRequest k

theorem onlyBuffers_of_eq {s t : State} (hb : t.buf = s.buf) (hc : t.cplLog = s.cplLog) : OnlyBuffers s t :=
  ⟨by rw [hb], [], by simp [hc]⟩

theorem onlyBuffers_of_answer {s t : State} {c : Completion} (ha : AnswersRequest c) (hb : t.buf = s.buf)
    (hc : t.cplLog = s.cplLog ++ [c]) : OnlyBuffers s t :=
  ⟨by rw [hb], [c], hc, by simpa using ha⟩

theorem wedged_iff {s : State} : s.wedged = true ↔ 2 ≤ s.buf.length ∧ headerKind s.buf = none := by
  simp [State.wedged]

/-- Bytes behind a wedged head leave it wedged (R56, R170). -/
theorem wedged_of_extends {s t : State} (h : s.wedged = true) (hb : s.buf <+: t.buf) : t.wedged = true := by
  obtain ⟨hl, hk⟩ := wedged_iff.mp h
  obtain ⟨behind, hbehind⟩ := hb
  rw [wedged_iff, ← hbehind, headerKind_append behind hl]
  exact ⟨by simp; omega, hk⟩

/-- A wedged head is never classified, so a `FEED` only appends (R72, R170). -/
theorem feed_onlyBuffers (chunk : List Byte) {s : State} (h : s.wedged = true) : OnlyBuffers s (feed chunk s) := by
  rcases feed_cases chunk s with ⟨_, e⟩ | ⟨_, e⟩ <;> rw [e]
  · exact onlyBuffers_of_eq rfl rfl
  · have hgrow : s.buf <+: (memAppend chunk s).buf := List.prefix_append _ _
    obtain ⟨_, hk⟩ := wedged_iff.mp (wedged_of_extends h hgrow)
    rw [extract_of_wait (extractPass_of_unclassified (classify_of_unknownHeader hk))]
    exact ⟨hgrow, [], by simp⟩

theorem requestBody_onlyBuffers (r : Request) (s : State) : OnlyBuffers s (requestBody r s) := by
  rcases requestBody_cases r s with ⟨c, ha, e⟩ | ⟨_, e⟩ | ⟨f, c, ha, _, e⟩ | ⟨n, _, _, _, e⟩ <;> rw [e]
  · exact onlyBuffers_of_answer ha rfl rfl
  · exact onlyBuffers_of_eq rfl rfl
  · exact onlyBuffers_of_answer ha rfl rfl
  · exact onlyBuffers_of_eq rfl rfl

theorem eventBody_onlyBuffers {p : Input} {s : State} (h : s.wedged = true) (hp : p ≠ .rst) :
    OnlyBuffers s (eventBody p s) := by
  cases p with
  | rx chunk => exact feed_onlyBuffers chunk h
  | req r => exact requestBody_onlyBuffers r s
  | tmrData => exact onlyBuffers_of_answer ⟨rfl, rfl⟩ rfl rfl
  | tmrCmd => exact onlyBuffers_of_answer ⟨rfl, rfl⟩ rfl rfl
  | rst => exact absurd rfl hp

/-- Settles O51: every event but `RESET` at most appends to the buffer, and the head decides about the wedge. -/
theorem wedgeIsPermanent : Obligations.WedgeIsPermanent := by
  intro s t hw h hrst
  have hgrow : OnlyBuffers s t := by
    rcases step_cases h with ⟨rest, rfl⟩ | ⟨p, rest, hin, _, _, rfl⟩
    · exact onlyBuffers_of_eq rfl rfl
    · rw [hin] at hrst
      exact eventBody_onlyBuffers (s := { s with inbox := rest }) hw (fun hp => hrst (congrArg some hp))
  obtain ⟨hbuf, delivered, hlog, hkind⟩ := hgrow
  refine ⟨wedged_of_extends hw hbuf, hbuf, fun k hk => ?_⟩
  rw [hlog, List.drop_left] at hk
  exact hkind k hk

end Sys2Proof.Machine
end
